-- ==== Sys2Proof/Word.lean ====
section
/-! DEFINITION. The bit widths of the block and its digit count (00_scope.md R8, R10). -/

namespace Sys2Proof

/-- A segment pattern, a level or a counter: bits8 (R10). -/
abbrev Byte := BitVec 8

/-- The 16-bit command word CMD (R70). -/
abbrev CmdWord := BitVec 16

/-- The 32-bit operand DATA, the result rdata and the shift-register words (R70, R30, R31). -/
abbrev Word := BitVec 32

/-- `N`, the digit count, fixed at 3 (R8). -/
abbrev digitCount : Nat := 3

/-- `mask(w)` is `2^w - 1`: `mask(0)` is 0 and `mask(32)` is all ones (R10). -/
def mask (w : Nat) : Word := BitVec.ofNat 32 (2 ^ w - 1)

end Sys2Proof
end

