-- ==== Sys2Proof/Syntax.lean ====
section
/-! DEFINITION. The commands of the block, one constructor per row of spec/opcode_table.json (30_encoding.md
R74), and the lines of the assembler (30_encoding.md R80, R81). -/

namespace Sys2Proof

/-- A decoded command. A constructor carries exactly the fields its format reads (R72): `a` is the position
field A, `b` the immediate field B, `data` the operand DATA. -/
inductive Instr where
  /-- OP 0x0, format N: one tick of the block (R150). -/
  | tick
  /-- OP 0x1, format N: clear the display (R159). -/
  | clr
  /-- OP 0x2, format AB: set the pattern of a digit (R160). -/
  | setdig (a : BitVec 4) (b : Byte)
  /-- OP 0x3, format A: get the pattern of a digit (R161). -/
  | getdig (a : BitVec 4)
  /-- OP 0x4, format B: set the dimming level (R162). -/
  | setdim (b : Byte)
  /-- OP 0x5, format B: set the analog resolution level (R135). -/
  | setres (b : Byte)
  /-- OP 0x6, format N: get the button state (R98). -/
  | getbtn
  /-- OP 0x7, format N: acknowledge the current button event (R99). -/
  | ackbtn
  /-- OP 0x8, format D: write the pending output word (R116). -/
  | srwr (data : Word)
  /-- OP 0x9, format N: read the latest input word (R117). -/
  | srrd
  /-- OP 0xA, format N: get the analog sample (R136). -/
  | getadc
  /-- OP 0xB, reserved (R76). -/
  | reservedB
  /-- OP 0xC, reserved (R76). -/
  | reservedC
  /-- OP 0xD, reserved (R76). -/
  | reservedD
  /-- OP 0xE, reserved (R76). -/
  | reservedE
  /-- OP 0xF, reserved (R76). -/
  | reservedF
  deriving DecidableEq, Repr

/-- One line of assembler source: a mnemonic with its operands as the numbers written (R80), before any range
check. The last constructor is the one pseudo-instruction (R81). -/
inductive AsmLine where
  | tick
  | clr
  | setdig (pos pattern : Nat)
  | getdig (pos : Nat)
  | setdim (level : Nat)
  | setres (level : Nat)
  | getbtn
  | ackbtn
  | srwr (word : Nat)
  | srrd
  | getadc
  /-- `SETALL p2, p1, p0` (R81). -/
  | setall (p2 p1 p0 : Nat)
  deriving DecidableEq, Repr

end Sys2Proof
end

