-- ==== Sys2Proof/Decode.lean ====
section
/-! DEFINITION. Decoding a command transaction (30_encoding.md R70 to R78) and the encoder written from the same
table (R71, R74, R80). -/

namespace Sys2Proof

/-- `OP = CMD[15:12]` (R71). -/
def fieldOp (cmd : CmdWord) : BitVec 4 := cmd.extractLsb' 12 4

/-- `A = CMD[11:8]` (R71). -/
def fieldA (cmd : CmdWord) : BitVec 4 := cmd.extractLsb' 8 4

/-- `B = CMD[7:0]` (R71). -/
def fieldB (cmd : CmdWord) : Byte := cmd.extractLsb' 0 8

/-- The opcode map (R74). Decoding is total: each of the 16 values of OP selects one row (R75), and a field the
row's format does not read is ignored (R72, R77). -/
def decode (cmd : CmdWord) (data : Word) : Instr :=
  match (fieldOp cmd).toNat with
  | 0x0 => .tick
  | 0x1 => .clr
  | 0x2 => .setdig (fieldA cmd) (fieldB cmd)
  | 0x3 => .getdig (fieldA cmd)
  | 0x4 => .setdim (fieldB cmd)
  | 0x5 => .setres (fieldB cmd)
  | 0x6 => .getbtn
  | 0x7 => .ackbtn
  | 0x8 => .srwr data
  | 0x9 => .srrd
  | 0xA => .getadc
  | 0xB => .reservedB
  | 0xC => .reservedC
  | 0xD => .reservedD
  | 0xE => .reservedE
  | _ => .reservedF

/-- Why a string of bits is not a command transaction. -/
inductive DecodeError where
  /-- A transaction has 16 + 32 bits and no longer form exists (R70, R78). -/
  | longerThanTransaction
  deriving DecidableEq, Repr

/-- CMD and DATA of a transaction whose bits are `w`, numbered with CMD as bits 15..0 and DATA as bits 47..16; the
bits above `nbits` are 0. The numbering is DESIGN CHOICE (log 16). -/
def transactionWords (nbits w : Nat) : CmdWord × Word :=
  let v := w % 2 ^ nbits
  (BitVec.ofNat 16 v, BitVec.ofNat 32 (v / 2 ^ 16))

/-- The command that `nbits` bits `w` are. Refuses, by name, what is longer than a transaction (R78). -/
def decodeTransaction (nbits w : Nat) : Except DecodeError Instr :=
  if nbits ≤ 48 then
    .ok (decode (transactionWords nbits w).1 (transactionWords nbits w).2)
  else .error .longerThanTransaction

/-- What the decoder reads from a row of the opcode table laid out as a transaction. -/
def decodeTableWord (nbits w : Nat) : Option Instr :=
  match decodeTransaction nbits w with
  | .ok i => some i
  | .error _ => none

/-- The opcode of each command (R74). -/
def opcode : Instr → BitVec 4
  | .tick => 0x0
  | .clr => 0x1
  | .setdig _ _ => 0x2
  | .getdig _ => 0x3
  | .setdim _ => 0x4
  | .setres _ => 0x5
  | .getbtn => 0x6
  | .ackbtn => 0x7
  | .srwr _ => 0x8
  | .srrd => 0x9
  | .getadc => 0xA
  | .reservedB => 0xB
  | .reservedC => 0xC
  | .reservedD => 0xD
  | .reservedE => 0xE
  | .reservedF => 0xF

/-- The A field the encoder writes: the operand, or 0 where the format does not read A (R80). -/
def operandA : Instr → BitVec 4
  | .setdig a _ => a
  | .getdig a => a
  | .tick | .clr | .setdim _ | .setres _ | .getbtn | .ackbtn | .srwr _ | .srrd | .getadc
  | .reservedB | .reservedC | .reservedD | .reservedE | .reservedF => 0

/-- The B field the encoder writes: the operand, or 0 where the format does not read B (R80). -/
def operandB : Instr → Byte
  | .setdig _ b => b
  | .setdim b => b
  | .setres b => b
  | .tick | .clr | .getdig _ | .getbtn | .ackbtn | .srwr _ | .srrd | .getadc
  | .reservedB | .reservedC | .reservedD | .reservedE | .reservedF => 0

/-- The DATA operand the encoder writes: 0 except for SRWR (R80). -/
def operandData : Instr → Word
  | .srwr data => data
  | .tick | .clr | .setdig _ _ | .getdig _ | .setdim _ | .setres _ | .getbtn | .ackbtn | .srrd | .getadc
  | .reservedB | .reservedC | .reservedD | .reservedE | .reservedF => 0

/-- `CMD = {OP, A, B}` (R80). -/
def encodeCmd (i : Instr) : CmdWord := opcode i ++ operandA i ++ operandB i

/-- The words of a command: CMD and DATA (R80). -/
def encode (i : Instr) : CmdWord × Word := (encodeCmd i, operandData i)

end Sys2Proof
end

