-- ==== Sys2Proof/Config.lean ====
section
/-! DEFINITION. What one build of the block fixes (00_scope.md R8) and what the environment supplies (10_state.md
R36). -/

namespace Sys2Proof

/-- A scale function "built from shifts and adds of `raw`" (42_analog.md R137), written down as the expression
that builds it. -/
inductive Scale where
  /-- The elapsed value itself. -/
  | raw
  /-- `e >> k`. -/
  | shr (e : Scale) (k : Nat)
  /-- `e << k`. -/
  | shl (e : Scale) (k : Nat)
  /-- `a + b`. -/
  | add (a b : Scale)
  deriving DecidableEq, Repr, Inhabited

/-- `P_SCALE`: one scale function for each of the detent levels 1..6 (R137). -/
structure ScaleTable where
  level1 : Scale
  level2 : Scale
  level3 : Scale
  level4 : Scale
  level5 : Scale
  level6 : Scale
  deriving DecidableEq, Repr, Inhabited

/-- The parameters of one build (R8). They never change at run time. `N` and `P_TIMER_W` are fixed widths of the
model; the durations are names in `WaitTime`; `P_HOST_MAP` and `P_BOARD_WIRING` are read by no rule (log 19). -/
structure Build where
  /-- `P_SR_OUT_W`, 0..32; 0 disables the output half. -/
  srOutW : Fin 33
  /-- `P_SR_IN_W`, 0..32; 0 disables the input half. -/
  srInW : Fin 33
  /-- `P_ANALOG_EN`. -/
  analogEn : Bool
  /-- `P_SAMPLE_TICKS`, 1..255. -/
  sampleTicks : Byte
  /-- `P_LONG_SAMPLES`, 1..255. -/
  longSamples : Byte
  /-- `P_DIM_MAX`, 0..251. -/
  dimMax : Byte
  /-- `P_SCALE`. -/
  scale : ScaleTable
  deriving DecidableEq, Repr, Inhabited

/-- The default table of R137: ×0.25, ×0.375, ×0.5, ×0.75, ×1, ×1.5 for levels 1 to 6. -/
def Config.defaultScale : ScaleTable where
  level1 := .shr .raw 2
  level2 := .add (.shr .raw 2) (.shr .raw 3)
  level3 := .shr .raw 1
  level4 := .add (.shr .raw 1) (.shr .raw 2)
  level5 := .raw
  level6 := .add .raw (.shr .raw 1)

/-- The default value of every OPEN parameter, as R8's table shows it. Using it at `State.reset` is DESIGN CHOICE
(log 4). -/
def Config.defaultBuild : Build where
  srOutW := 8
  srInW := 8
  analogEn := true
  sampleTicks := 10
  longSamples := 50
  dimMax := 251
  scale := Config.defaultScale

/-- The draws of one step (R36): no step draws `EnvBtn` or `EnvTimer` more than once. -/
structure Draws where
  /-- `EnvBtn()`: bit 0 is button-1, bit 1 is button-2. -/
  btn : BitVec 2
  /-- `EnvDin(k)` is bit k. -/
  din : Word
  /-- `EnvTimer()`. -/
  timer : Byte
  deriving DecidableEq, Repr, Inhabited

/-- FREE VALUE: the draws of the n-th step whose draws nothing has listed. R36 and 93 I2 say that nothing
constrains them, so this has no body (log 2). -/
opaque Config.freeDraws : Nat → Draws

end Sys2Proof
end

