-- ==== Sys2Proof/Machine/State.lean ====
section
/-! DEFINITION. The state of the block (10_state.md R20), the steps still to come, the outcome reasons and the state
after reset (70_reset_and_hazards.md R201). -/

namespace Sys2Proof.Machine

/-- The output lines of one bit (10_state.md R38). -/
inductive Line where
  | srDout
  | srClk
  | srLoad
  | srDinOe
  | btnCom
  | senseDrv
  deriving DecidableEq, Repr

/-- The busy-waits a step can make (00_scope.md R8, R12). They have no number: the model has no time (R6, log 8). -/
inductive WaitTime where
  /-- `P_T_CLK`. -/
  | clk
  /-- `P_T_SETTLE`. -/
  | settle
  deriving DecidableEq, Repr

/-- An event of the pin-event trace (00_scope.md R12; 43_display.md, opening, for SEG and ANODE). -/
inductive PinEvent where
  | out (l : Line) (v : Bool)
  | outSeg (v : Byte)
  | outAnode (v : BitVec 3)
  | wait (t : WaitTime)
  deriving DecidableEq, Repr

/-- What happens next at the block: a host command (R70) or a trip of the comparator (R36). -/
inductive Event where
  | command (cmd : CmdWord) (data : Word)
  | trip
  deriving DecidableEq, Repr

/-- One step still to come, with what the environment supplies to it; `none` leaves its draws open (log 1, log 2). -/
structure Input where
  event : Event
  draws : Option Draws
  deriving DecidableEq, Repr

/-- The registers and lines of R20, the outputs of the latest step, the build's parameters, and the model's own
input fields. -/
structure State where
  /-- `DIGIT[0..2]`, index 0 the rightmost digit (R21). -/
  digit : Vector Byte digitCount
  /-- `DIM` (R22). -/
  dim : Byte
  /-- `SLOT` (R23). -/
  slot : Byte
  /-- `SEG` (R24). -/
  seg : Byte
  /-- `ANODE` (R25). -/
  anode : BitVec 3
  /-- `BS` (R26). -/
  bs : Byte
  /-- `LCNT` (R28). -/
  lcnt : Byte
  /-- `SCNT` (R29). -/
  scnt : Byte
  /-- `SR_OUT` (R30). -/
  srOut : Word
  /-- `SR_IN` (R31). -/
  srIn : Word
  /-- `RES` (R32). -/
  res : BitVec 3
  /-- `SAMPLE` (R33). -/
  sample : Byte
  /-- `T0` (R34). -/
  t0 : Byte
  /-- `CMP_IE` (R35). -/
  cmpIe : Bool
  /-- Line `SR_DOUT` (R38). -/
  srDout : Bool
  /-- Line `SR_CLK` (R38). -/
  srClk : Bool
  /-- Line `SR_LOAD` (R38). -/
  srLoad : Bool
  /-- Line `SR_DIN_OE` (R38). -/
  srDinOe : Bool
  /-- Line `BTN_COM` (R38). -/
  btnCom : Bool
  /-- Line `SENSE_DRV` (R38). -/
  senseDrv : Bool
  /-- `rdata`, the result of the latest command (R70). No step reads it (log 6). -/
  rdata : Word
  /-- The pin-event trace of the latest step, oldest event first (R12). No step reads it (R39, log 6). -/
  trace : List PinEvent
  /-- The build's parameters (R8). No step writes them (log 4). -/
  build : Build
  /-- MODEL'S OWN: the draws of the step in progress (R36, log 2). -/
  env : Draws
  /-- MODEL'S OWN: the steps still to come, next one first (R57, log 1). -/
  inbox : List Input
  /-- MODEL'S OWN: how many steps have taken free draws (log 2). -/
  drawIdx : Nat
  deriving DecidableEq, Repr

/-- Why a step can stop with a fault. There is no reason: "No command and no capture raises an exception, traps,
faults or stops the block" (60_exceptions.md R180, log 20). -/
inductive Fault where
  deriving DecidableEq, Repr

/-- Why an instruction can be refused. -/
inductive Refusal where
  /-- Safe. An arm of `exec` whose command has no meaning yet would answer this; no arm does. -/
  | notModelled (mnemonic : String)
  deriving DecidableEq, Repr

/-- The state after power-on of a block built with `b`: the table of R201. The outputs, the inputs and the counter
of free draws are empty or zero, DESIGN CHOICE (log 18). -/
def State.resetOf (b : Build) : State where
  digit := #v[0, 0, 0]
  dim := 0
  slot := 0
  seg := 0
  anode := 0
  bs := 0
  lcnt := 0
  scnt := b.sampleTicks
  srOut := 0
  srIn := 0
  res := 7
  sample := 0
  t0 := 0
  cmpIe := false
  srDout := true
  srClk := false
  srLoad := true
  srDinOe := true
  btnCom := false
  senseDrv := true
  rdata := 0
  trace := []
  build := b
  env := ⟨0, 0, 0⟩
  inbox := []
  drawIdx := 0

/-- The state after power-on of a block with R8's default parameters (R200, log 4). -/
def State.reset : State := State.resetOf Config.defaultBuild

end Sys2Proof.Machine
end

