-- ==== Sys2Proof/Machine/Ops.lean ====
section
/-! DEFINITION. The named operations on the state: register writes, line writes with their trace events, draws, and
the beginning and end of a step (00_scope.md R12). The block has no memory (20_memory.md R50), no program counter
(10_state.md R37) and no exceptions (60_exceptions.md R180), so there is no memory access, no exception entry and no
return here; the one interrupt is `capture` in Machine/Analog.lean. -/

namespace Sys2Proof.Machine

/-- `DIGIT[0..N-1] <- ds`. -/
def State.setDigits (s : State) (ds : Vector Byte digitCount) : State := { s with digit := ds }

/-- `DIM <- v`. -/
def State.setDim (s : State) (v : Byte) : State := { s with dim := v }

/-- `SLOT <- v`. -/
def State.setSlot (s : State) (v : Byte) : State := { s with slot := v }

/-- `SEG <- v`: register and lines at once, with the event `Out(SEG, v)` (43_display.md, opening). -/
def State.setSeg (s : State) (v : Byte) : State := { s with seg := v, trace := s.trace ++ [.outSeg v] }

/-- `ANODE <- v`: register and lines at once, with the event `Out(ANODE, v)`. -/
def State.setAnode (s : State) (v : BitVec 3) : State := { s with anode := v, trace := s.trace ++ [.outAnode v] }

/-- `BS <- v`. -/
def State.setBs (s : State) (v : Byte) : State := { s with bs := v }

/-- `LCNT <- v`. -/
def State.setLcnt (s : State) (v : Byte) : State := { s with lcnt := v }

/-- `SCNT <- v`. -/
def State.setScnt (s : State) (v : Byte) : State := { s with scnt := v }

/-- `SR_OUT <- v`. -/
def State.setSrOut (s : State) (v : Word) : State := { s with srOut := v }

/-- `SR_IN <- v`. -/
def State.setSrIn (s : State) (v : Word) : State := { s with srIn := v }

/-- `RES <- v`. -/
def State.setRes (s : State) (v : BitVec 3) : State := { s with res := v }

/-- `SAMPLE <- v`. -/
def State.setSample (s : State) (v : Byte) : State := { s with sample := v }

/-- `T0 <- v`. -/
def State.setT0 (s : State) (v : Byte) : State := { s with t0 := v }

/-- `CMP_IE <- v`. -/
def State.setCmpIe (s : State) (v : Bool) : State := { s with cmpIe := v }

/-- Append an event to the trace of the step (R12). -/
def State.emit (s : State) (e : PinEvent) : State := { s with trace := s.trace ++ [e] }

/-- `Out(L, v)`: set the line and append the event (R12). -/
def State.out (s : State) (l : Line) (v : Bool) : State :=
  match l with
  | .srDout => { s with srDout := v, trace := s.trace ++ [.out .srDout v] }
  | .srClk => { s with srClk := v, trace := s.trace ++ [.out .srClk v] }
  | .srLoad => { s with srLoad := v, trace := s.trace ++ [.out .srLoad v] }
  | .srDinOe => { s with srDinOe := v, trace := s.trace ++ [.out .srDinOe v] }
  | .btnCom => { s with btnCom := v, trace := s.trace ++ [.out .btnCom v] }
  | .senseDrv => { s with senseDrv := v, trace := s.trace ++ [.out .senseDrv v] }

/-- `Wait(t)`: no effect but its event (R12). -/
def State.wait (s : State) (t : WaitTime) : State := s.emit (.wait t)

/-- `Pulse(SR_CLK)` (R12). -/
def State.pulse (s : State) : State := ((s.out .srClk true).wait .clk).out .srClk false

/-- `EnvBtn()` (10_state.md R36). -/
def State.envBtn (s : State) : BitVec 2 := s.env.btn

/-- `EnvDin(k)` (10_state.md R36). -/
def State.envDin (s : State) (k : Nat) : Bool := s.env.din.getLsbD k

/-- `EnvTimer()` (10_state.md R36). -/
def State.envTimer (s : State) : Byte := s.env.timer

/-- A step begins: its trace is empty (00_scope.md R12, 10_state.md R39). -/
def State.begin (s : State) : State := { s with trace := [] }

/-- `rdata <- v` (R12). -/
def State.reply (s : State) (v : Word) : State := { s with rdata := v }

/-- A command that emits no pin event: the state `s` it left, an empty trace and the result `v`. -/
def State.complete (s : State) (v : Word) : Host.Outcome State Fault Refusal := .next (s.begin.reply v)

/-- Take an input off the front of the total order (20_memory.md R57) and make its draws those of the step: the
listed ones, or free ones (10_state.md R36, log 2). -/
def State.accept (s : State) (draws : Option Draws) (rest : List Input) : State :=
  match draws with
  | some d => { s with inbox := rest, env := d }
  | none => { s with inbox := rest, env := Config.freeDraws s.drawIdx, drawIdx := s.drawIdx + 1 }

end Sys2Proof.Machine
end

