-- ==== Sys2Proof/Machine/Operands.lean ====
section
/-! DEFINITION. The operand forms: a digit position, an 8-bit level, the 32-bit operand (30_encoding.md R73), and the
effect of an operand that is out of range (60_exceptions.md R181). -/

namespace Sys2Proof.Machine

/-- The DigitBuffer element a position names, or 0 where the position is `N..15` (43_display.md R161). -/
def State.readDigit (s : State) (pos : BitVec 4) : Byte :=
  if h : pos.toNat < digitCount then s.digit[pos.toNat] else 0

/-- Write the DigitBuffer element a position names; positions `N..15` write nothing (43_display.md R160). -/
def State.writeDigit (s : State) (pos : BitVec 4) (v : Byte) : State :=
  if h : pos.toNat < digitCount then s.setDigits (s.digit.set pos.toNat v) else s

/-- A dimming level is legal when it is at most `P_DIM_MAX` (43_display.md R162). -/
def dimLegal (b : Build) (level : Byte) : Bool := level.toNat ≤ b.dimMax.toNat

/-- A resolution level is legal when the whole immediate is at most 7: it is not reduced to 3 bits first
(30_encoding.md R73, 42_analog.md R135). -/
def resLegal (level : Byte) : Bool := level.toNat ≤ 7

/-- `zext_32` of an 8-bit register (20_memory.md R53). -/
def zext32 (v : Byte) : Word := v.zeroExtend 32

end Sys2Proof.Machine
end

