-- ==== Sys2Proof/Machine/Analog.lean ====
section
/-! DEFINITION. The RC analog sampler (42_analog.md): arming and discharge, the scale and the filter, the capture (the
block's one interrupt, 60_exceptions.md R182 to R188), and the commands SETRES and GETADC. -/

namespace Sys2Proof.Machine

/-- ARM (R131), one atomic action. -/
def arm (s : State) : State := ((s.setT0 s.envTimer).setCmpIe true).out .senseDrv false

/-- DISCHARGE (R132). -/
def discharge (s : State) : State := s.out .senseDrv true

/-- The value of a scale expression on unbounded naturals (R11, R137). -/
def scaleEval (raw : Nat) : Scale → Nat
  | .raw => raw
  | .shr e k => scaleEval raw e / 2 ^ k
  | .shl e k => scaleEval raw e * 2 ^ k
  | .add a b => scaleEval raw a + scaleEval raw b

/-- The scale function of a detent level 1..6 (R137). The capture asks for no other level (R140). -/
def detent (t : ScaleTable) (level : BitVec 3) : Scale :=
  match level.toNat with
  | 1 => t.level1
  | 2 => t.level2
  | 3 => t.level3
  | 4 => t.level4
  | 5 => t.level5
  | _ => t.level6

/-- `P_SCALE(level, raw)` (R137). -/
def pScale (b : Build) (level : BitVec 3) (raw : Byte) : Nat := scaleEval raw.toNat (detent b.scale level)

/-- ELAPSED (R138): modulo 2^8. -/
def elapsed (t1 t0 : Byte) : Byte := t1 - t0

/-- FILTER (R139): three parts old to one part new, rounded, saturated at 255. -/
def filter (old : Byte) (scaled : Nat) : Byte :=
  BitVec.ofNat 8 (min 255 ((3 * old.toNat + scaled + 2) / 2 ^ 2))

/-- SAMPLE after a capture with elapsed value `raw` (R134, R140). -/
def sampleAfter (b : Build) (res : BitVec 3) (old raw : Byte) : Byte :=
  if res = 0 then 0
  else if res = 7 then raw
  else filter old (pScale b res raw)

/-- CAPTURE (R140), one atomic step of the capture agent; it has no pin events and returns nothing to the host. -/
def capture (s : State) : State :=
  (s.begin.setCmpIe false).setSample (sampleAfter s.build s.res s.sample (elapsed s.envTimer s.t0))

/-- The comparator trips: the capture agent has a step exactly when CMP_IE is 1 (R141); a trip otherwise changes
nothing (DEDUCED, log 3). -/
def comparatorTrip (s : State) : State := if s.cmpIe then capture s else s

/-- SETRES (R135); a no-op where the sampler is not built in (R133). -/
def execSetres (b : Byte) (s : State) : Host.Outcome State Fault Refusal :=
  if s.build.analogEn && resLegal b then (s.setRes (b.extractLsb' 0 3)).complete 0 else s.complete 0

/-- GETADC (R136); 0 where the sampler is not built in (R133). -/
def execGetadc (s : State) : Host.Outcome State Fault Refusal :=
  if s.build.analogEn then s.complete (zext32 s.sample) else s.complete 0

/-- A scale function's results lie in 0..511 for every elapsed value (R137). -/
def scaleLegal (e : Scale) : Bool := (List.range 256).all fun raw => scaleEval raw e ≤ 511

/-- Every parameter lies in its range (00_scope.md R8, 42_analog.md R137); the widths do by their type. -/
def buildLegal (b : Build) : Bool :=
  b.sampleTicks.toNat ≠ 0 && b.longSamples.toNat ≠ 0 && b.dimMax.toNat ≤ 251 &&
    scaleLegal b.scale.level1 && scaleLegal b.scale.level2 && scaleLegal b.scale.level3 &&
    scaleLegal b.scale.level4 && scaleLegal b.scale.level5 && scaleLegal b.scale.level6

end Sys2Proof.Machine
end

