-- ==== Sys2Proof/Machine/Flags.lean ====
section
/-! DEFINITION. The fields of the ButtonState byte BS (10_state.md R26): BTN is bits 1:0, LONG bit 5, PRESS bit 6, ACK
bit 7. Bits 4:2 are reserved and no operation here changes them. -/

namespace Sys2Proof.Machine

/-- `BTN`, the buttons of the current event. -/
def btnOf (bs : Byte) : BitVec 2 := bs.extractLsb' 0 2

/-- `LONG`, the long-press flag. -/
def longOf (bs : Byte) : Bool := bs.getLsbD 5

/-- `PRESS`, the pressed flag. -/
def pressOf (bs : Byte) : Bool := bs.getLsbD 6

/-- `ACK`, the acknowledged flag. -/
def ackOf (bs : Byte) : Bool := bs.getLsbD 7

/-- Bits 4:2, which read 0 (R26). -/
def reservedOf (bs : Byte) : BitVec 3 := bs.extractLsb' 2 3

/-- `BTN <- r`. -/
def withBtn (bs : Byte) (r : BitVec 2) : Byte := (bs &&& 0xFC#8) ||| r.zeroExtend 8

/-- `LONG <- v`. -/
def withLong (bs : Byte) (v : Bool) : Byte := if v then bs ||| 0x20#8 else bs &&& 0xDF#8

/-- `PRESS <- v`. -/
def withPress (bs : Byte) (v : Bool) : Byte := if v then bs ||| 0x40#8 else bs &&& 0xBF#8

/-- `ACK <- v`. -/
def withAck (bs : Byte) (v : Bool) : Byte := if v then bs ||| 0x80#8 else bs &&& 0x7F#8

end Sys2Proof.Machine
end

