-- ==== Sys2Proof/Machine/Buttons.lean ====
section
/-! DEFINITION. The button debouncer (40_buttons.md): when it runs, how it reads the buttons, its transition function,
and the commands GETBTN and ACKBTN. -/

namespace Sys2Proof.Machine

/-- RELEASE (R93): a long release keeps LONG, every other release clears it. BTN and LCNT are unchanged. -/
def release (s : State) : State :=
  if longOf s.bs && ackOf s.bs then
    s.setBs (withAck (withPress s.bs false) false)
  else
    s.setBs (withAck (withLong (withPress s.bs false) false) false)

/-- PRESS_START (R94). -/
def pressStart (r : BitVec 2) (s : State) : State :=
  (s.setBs (withAck (withLong (withPress (withBtn s.bs r) true) false) false)).setLcnt s.build.longSamples

/-- BOTH_EVENT (R95). -/
def bothEvent (s : State) : State :=
  (s.setBs (withAck (withBtn s.bs 0b11) false)).setLcnt s.build.longSamples

/-- HELD (R96): the long-press event comes when LCNT reaches 0; a long-press never fires twice. -/
def held (s : State) : State :=
  if longOf s.bs then s
  else
    let t := s.setLcnt (s.lcnt - 1)
    if t.lcnt = 0 then t.setBs (withAck (withLong t.bs true) false) else t

/-- DEBOUNCE (R92): exactly one of the cases of R93 to R97, tried in the order of R92. -/
def debounce (r : BitVec 2) (s : State) : State :=
  if r = 0b00 then
    if pressOf s.bs then release s else s
  else if pressOf s.bs = false then pressStart r s
  else if r = 0b11 ∧ btnOf s.bs ≠ 0b11 ∧ longOf s.bs = false then bothEvent s
  else if r = btnOf s.bs then held s
  else s

/-- The line protocol of BTN_READ (R91): raise the common line, wait, lower it. The draw between is `State.envBtn`. -/
def btnRead (s : State) : State := ((s.out .btnCom true).wait .settle).out .btnCom false

/-- SAMPLE_COUNTDOWN (R90): step 3 of TICK. -/
def sampleCountdown (s : State) : State :=
  let t := s.setScnt (s.scnt - 1)
  if t.scnt = 0 then debounce t.envBtn (btnRead (t.setScnt t.build.sampleTicks)) else t

/-- GETBTN (R98). -/
def execGetbtn (s : State) : Host.Outcome State Fault Refusal := s.complete (zext32 s.bs)

/-- ACKBTN (R99). -/
def execAckbtn (s : State) : Host.Outcome State Fault Refusal := (s.setBs (withAck s.bs true)).complete 0

end Sys2Proof.Machine
end

