-- ==== Sys2Proof/Machine/ShiftReg.lean ====
section
/-! DEFINITION. The shift-register engine (41_shiftreg.md): the exchange that TICK runs, and the commands SRWR and
SRRD. -/

namespace Sys2Proof.Machine

/-- The output bits `n-1` down to 0, each driven on SR_DOUT and clocked (R111). -/
def outputBits : Nat → State → State
  | 0, s => s
  | i + 1, s => outputBits i (s.out .srDout (s.srOut.getLsbD i)).pulse

/-- OUTPUT_PHASE (R111). -/
def outputPhase (s : State) : State := outputBits s.build.srOutW.val s

/-- DOUT_PARK (R112). -/
def doutPark (s : State) : State := s.out .srDout true

/-- LOAD_STROBE (R113). -/
def loadStrobe (s : State) : State := (s.out .srLoad false).out .srLoad true

/-- The input samples 0 to `n-1` in order, each a clock pulse and a sample shifted into the low end of the running
word, which starts at 0 (R114). -/
def inputBits : Nat → State → State × Word
  | 0, s => (s, 0)
  | k + 1, s =>
    let p := inputBits k s
    (p.1.pulse, (p.2 <<< 1) ||| (BitVec.ofBool (p.1.envDin k)).zeroExtend 32)

/-- INPUT_PHASE (R114). -/
def inputPhase (s : State) : State :=
  let p := inputBits s.build.srInW.val (s.out .srDinOe false)
  (p.1.setSrIn p.2).out .srDinOe true

/-- SR_EXCHANGE (R110): step 2 of TICK. -/
def exchange (s : State) : State :=
  if s.build.srOutW.val = 0 ∧ s.build.srInW.val = 0 then s
  else
    let t := loadStrobe (doutPark (outputPhase s))
    if 0 < t.build.srInW.val then inputPhase t else t

/-- SRWR (R116). -/
def execSrwr (data : Word) (s : State) : Host.Outcome State Fault Refusal :=
  (s.setSrOut (data &&& mask s.build.srOutW.val)).complete 0

/-- SRRD (R117). -/
def execSrrd (s : State) : Host.Outcome State Fault Refusal := s.complete s.srIn

end Sys2Proof.Machine
end

