-- ==== Sys2Proof/Machine/Display.lean ====
section
/-! DEFINITION. The display multiplexer, the tick and the display commands (43_display.md): TICK, CLR, SETDIG, GETDIG,
SETDIM. -/

namespace Sys2Proof.Machine

/-- Step 1 of TICK: every digit driver off; SEG is not changed (R152). -/
def blankDigits (s : State) : State := s.setAnode 0

/-- `N + 1 + DIM`, the seed of a refresh cycle (R153). It fits 8 bits for every legal DIM (C7); for others it wraps
(DESIGN CHOICE, log 7). -/
def cycleSeed (dim : Byte) : Byte := BitVec.ofNat 8 (digitCount + 1 + dim.toNat)

/-- Step 4 of TICK: re-seed and arm, or discharge (R153, 42_analog.md R130, R133). -/
def reseed (s : State) : State :=
  if s.slot = 0 then
    let t := s.setSlot (cycleSeed s.dim)
    if t.build.analogEn then arm t else t
  else if s.build.analogEn then discharge s else s

/-- Step 5 of TICK (R154). -/
def advanceSlot (s : State) : State := s.setSlot (s.slot - 1)

/-- Step 6 of TICK: light digit SLOT, or stay dark with SEG kept; SEG is written before ANODE (R155). -/
def lightDigit (s : State) : State :=
  if h : s.slot.toNat < digitCount then
    (s.setSeg s.digit[s.slot.toNat]).setAnode (1#3 <<< s.slot.toNat)
  else s

/-- The six steps of a tick, in their order (R150). -/
def tick (s : State) : State :=
  lightDigit (advanceSlot (reseed (sampleCountdown (exchange (blankDigits s.begin)))))

/-- TICK (R150). -/
def execTick (s : State) : Host.Outcome State Fault Refusal := .next ((tick s).reply 0)

/-- CLR (R159): every digit gets the blank pattern 0x00. -/
def execClr (s : State) : Host.Outcome State Fault Refusal :=
  (s.setDigits (Vector.replicate digitCount 0x00)).complete 0

/-- SETDIG (R160). -/
def execSetdig (a : BitVec 4) (b : Byte) (s : State) : Host.Outcome State Fault Refusal :=
  (s.writeDigit a b).complete 0

/-- GETDIG (R161). -/
def execGetdig (a : BitVec 4) (s : State) : Host.Outcome State Fault Refusal := s.complete (zext32 (s.readDigit a))

/-- SETDIM (R162). -/
def execSetdim (b : Byte) (s : State) : Host.Outcome State Fault Refusal :=
  if dimLegal s.build b then (s.setDim b).complete 0 else s.complete 0

end Sys2Proof.Machine
end

