-- ==== Sys2Proof/Machine/Reserved.lean ====
section
/-! DEFINITION. The reserved opcodes: a reserved command changes no state, produces an empty trace and returns 0
(30_encoding.md R76). UNVERIFIED for a real block (log 10). -/

namespace Sys2Proof.Machine

/-- The effect every reserved opcode has (R76). -/
def reservedCommand (s : State) : Host.Outcome State Fault Refusal := s.complete 0

/-- OP 0xB (R76). -/
def execReservedB (s : State) : Host.Outcome State Fault Refusal := reservedCommand s

/-- OP 0xC (R76). -/
def execReservedC (s : State) : Host.Outcome State Fault Refusal := reservedCommand s

/-- OP 0xD (R76). -/
def execReservedD (s : State) : Host.Outcome State Fault Refusal := reservedCommand s

/-- OP 0xE (R76). -/
def execReservedE (s : State) : Host.Outcome State Fault Refusal := reservedCommand s

/-- OP 0xF (R76). -/
def execReservedF (s : State) : Host.Outcome State Fault Refusal := reservedCommand s

end Sys2Proof.Machine
end

