-- ==== Sys2Proof/Machine/Dispatch.lean ====
section
/-! DEFINITION. One arm per command (30_encoding.md R74). -/

namespace Sys2Proof.Machine

/-- The effect of a decoded command. -/
def exec (i : Instr) (s : State) : Host.Outcome State Fault Refusal :=
  match i with
  | .tick => Sys2Proof.Machine.execTick s
  | .clr => Sys2Proof.Machine.execClr s
  | .setdig a b => Sys2Proof.Machine.execSetdig a b s
  | .getdig a => Sys2Proof.Machine.execGetdig a s
  | .setdim b => Sys2Proof.Machine.execSetdim b s
  | .setres b => Sys2Proof.Machine.execSetres b s
  | .getbtn => Sys2Proof.Machine.execGetbtn s
  | .ackbtn => Sys2Proof.Machine.execAckbtn s
  | .srwr data => Sys2Proof.Machine.execSrwr data s
  | .srrd => Sys2Proof.Machine.execSrrd s
  | .getadc => Sys2Proof.Machine.execGetadc s
  | .reservedB => Sys2Proof.Machine.execReservedB s
  | .reservedC => Sys2Proof.Machine.execReservedC s
  | .reservedD => Sys2Proof.Machine.execReservedD s
  | .reservedE => Sys2Proof.Machine.execReservedE s
  | .reservedF => Sys2Proof.Machine.execReservedF s

end Sys2Proof.Machine
end

