-- ==== Sys2Proof/Machine/Step.lean ====
section
/-! DEFINITION. One step of the block: the next command or comparator trip of the total order (20_memory.md R52, R57).
A program does not come from a memory: the host issues the commands (10_state.md R37), which in this model means
that they stand in `State.inbox` (log 1). -/

namespace Sys2Proof.Machine

/-- Run one event. -/
def runEvent (e : Event) (s : State) : Host.Outcome State Fault Refusal :=
  match e with
  | .command cmd data => exec (decode cmd data) s
  | .trip => .next (comparatorTrip s)

/-- One step. With nothing to come the block waits: its state stays as it is (log 1). -/
def step (s : State) : Host.Outcome State Fault Refusal :=
  match s.inbox with
  | [] => .next s
  | i :: rest => runEvent i.event (s.accept i.draws rest)

/-- `s` with the host's next command the one whose transaction has the bits `w`, its draws left open (log 1, log 2,
log 16). -/
def State.withFetchWord (s : State) (nbits w : Nat) : State :=
  { s with
    inbox := ⟨.command (transactionWords nbits w).1 (transactionWords nbits w).2, none⟩ :: s.inbox }

end Sys2Proof.Machine
end

