-- ==== Sys2Proof/WellFormed.lean ====
section
/-! DEFINITION. Which lines of assembler source are legal (30_encoding.md R80). A term of `Instr` needs no check:
its operands are bit vectors of exactly the width of their field, so every term is a command some word encodes. -/

namespace Sys2Proof

/-- `pos` must be 0..15, the A field (R80). -/
def posOk (n : Nat) : Bool := n ≤ 15

/-- `pattern` and `level` must be 0..255, the B field (R80). -/
def byteOk (n : Nat) : Bool := n ≤ 255

/-- `word` must be 0..0xFFFF_FFFF (R80). -/
def wordOk (n : Nat) : Bool := n ≤ 0xFFFFFFFF

/-- Every operand is in its range (R80). The pseudo-instruction's operands are patterns (R81). -/
def AsmLine.wellFormed : AsmLine → Bool
  | .tick => true
  | .clr => true
  | .setdig pos pattern => posOk pos && byteOk pattern
  | .getdig pos => posOk pos
  | .setdim level => byteOk level
  | .setres level => byteOk level
  | .getbtn => true
  | .ackbtn => true
  | .srwr word => wordOk word
  | .srrd => true
  | .getadc => true
  | .setall p2 p1 p0 => byteOk p2 && byteOk p1 && byteOk p0

end Sys2Proof
end

