-- ==== Sys2Proof/Machine/Assembler.lean ====
section
/-! DEFINITION. The assembler of 30_encoding.md R80 and R81: from a line of text to command transactions. -/

namespace Sys2Proof.Machine

/-- Why the assembler refuses a line. -/
inductive AsmError where
  /-- The mnemonic is none of R80's and not SETALL (R81). -/
  | unknownMnemonic
  /-- An operand is neither decimal nor hexadecimal with a `0x` prefix (R80). -/
  | malformedNumber
  /-- The mnemonic takes another number of operands (R80). -/
  | wrongOperandCount
  /-- An operand is out of its range (R80). -/
  | operandOutOfRange
  deriving DecidableEq, Repr

/-- The commands a legal line stands for: one, or SETALL's three, highest position first (R81). -/
def expand : AsmLine → List Instr
  | .tick => [.tick]
  | .clr => [.clr]
  | .setdig pos pattern => [.setdig (BitVec.ofNat 4 pos) (BitVec.ofNat 8 pattern)]
  | .getdig pos => [.getdig (BitVec.ofNat 4 pos)]
  | .setdim level => [.setdim (BitVec.ofNat 8 level)]
  | .setres level => [.setres (BitVec.ofNat 8 level)]
  | .getbtn => [.getbtn]
  | .ackbtn => [.ackbtn]
  | .srwr word => [.srwr (BitVec.ofNat 32 word)]
  | .srrd => [.srrd]
  | .getadc => [.getadc]
  | .setall p2 p1 p0 =>
    [.setdig 2 (BitVec.ofNat 8 p2), .setdig 1 (BitVec.ofNat 8 p1), .setdig 0 (BitVec.ofNat 8 p0)]

/-- The transactions of a line; "An assembler refuses an operand out of those ranges" (R80). -/
def assemble (l : AsmLine) : Except AsmError (List (CmdWord × Word)) :=
  if l.wellFormed then .ok ((expand l).map encode) else .error .operandOutOfRange

/-- A blank of the source text (DESIGN CHOICE, log 15). -/
def isBlank (c : Char) : Bool := c = ' ' || c = '\t'

/-- Without the blanks at both ends. -/
def trimBlanks (cs : List Char) : List Char := ((cs.dropWhile isBlank).reverse.dropWhile isBlank).reverse

/-- The parts of a text between its commas. -/
def splitCommas : List Char → List (List Char)
  | [] => [[]]
  | c :: cs =>
    if c = ',' then [] :: splitCommas cs
    else
      match splitCommas cs with
      | [] => [[c]]
      | p :: ps => (c :: p) :: ps

/-- The value of a digit, decimal or hexadecimal. -/
def digitValue (c : Char) : Option Nat :=
  if '0' ≤ c ∧ c ≤ '9' then some (c.toNat - '0'.toNat)
  else if 'a' ≤ c ∧ c ≤ 'f' then some (c.toNat - 'a'.toNat + 10)
  else if 'A' ≤ c ∧ c ≤ 'F' then some (c.toNat - 'A'.toNat + 10)
  else none

/-- The number the digits write in a base, after `acc`; `_` separates digit groups (00_scope.md R10, log 15). -/
def digitsValue (base : Nat) : Nat → List Char → Option Nat
  | acc, [] => some acc
  | acc, c :: cs =>
    if c = '_' then digitsValue base acc cs
    else
      match digitValue c with
      | some d => if d < base then digitsValue base (acc * base + d) cs else none
      | none => none

/-- "Numbers are decimal, or hexadecimal with a `0x` prefix" (R80); a number begins with a digit. -/
def parseNumber : List Char → Option Nat
  | '0' :: 'x' :: c :: cs => if (digitValue c).isSome then digitsValue 16 0 (c :: cs) else none
  | c :: cs => if (digitValue c).isSome then digitsValue 10 0 (c :: cs) else none
  | [] => none

/-- The operands of a line, separated by commas (R80). -/
def parseOperands (cs : List Char) : Option (List Nat) :=
  if trimBlanks cs = [] then some []
  else (splitCommas cs).mapM fun p => parseNumber (trimBlanks p)

/-- The line of a mnemonic and its operands: each mnemonic takes the operands R80 lists for it. -/
def lineOf (mnemonic : List Char) (ops : List Nat) : Except AsmError AsmLine :=
  if mnemonic = "TICK".toList then noOperand .tick
  else if mnemonic = "CLR".toList then noOperand .clr
  else if mnemonic = "SETDIG".toList then
    match ops with
    | [pos, pattern] => .ok (.setdig pos pattern)
    | _ => .error .wrongOperandCount
  else if mnemonic = "GETDIG".toList then oneOperand .getdig
  else if mnemonic = "SETDIM".toList then oneOperand .setdim
  else if mnemonic = "SETRES".toList then oneOperand .setres
  else if mnemonic = "GETBTN".toList then noOperand .getbtn
  else if mnemonic = "ACKBTN".toList then noOperand .ackbtn
  else if mnemonic = "SRWR".toList then oneOperand .srwr
  else if mnemonic = "SRRD".toList then noOperand .srrd
  else if mnemonic = "GETADC".toList then noOperand .getadc
  else if mnemonic = "SETALL".toList then
    match ops with
    | [p2, p1, p0] => .ok (.setall p2 p1 p0)
    | _ => .error .wrongOperandCount
  else .error .unknownMnemonic
where
  noOperand (l : AsmLine) : Except AsmError AsmLine :=
    match ops with
    | [] => .ok l
    | _ => .error .wrongOperandCount
  oneOperand (f : Nat → AsmLine) : Except AsmError AsmLine :=
    match ops with
    | [n] => .ok (f n)
    | _ => .error .wrongOperandCount

/-- A line of source text: its mnemonic, then its operands separated by commas (R80). -/
def parseLine (text : List Char) : Except AsmError AsmLine :=
  let cs := trimBlanks text
  match parseOperands (cs.dropWhile fun c => !isBlank c) with
  | some ops => lineOf (cs.takeWhile fun c => !isBlank c) ops
  | none => .error .malformedNumber

/-- The transactions of a line of source text (R80, R81). -/
def assembleText (text : List Char) : Except AsmError (List (CmdWord × Word)) :=
  match parseLine text with
  | .ok l => assemble l
  | .error e => .error e

end Sys2Proof.Machine
end

