-- ==== Sys2Proof/Safety.lean ====
section
/-! DEFINITION. The terms in which statements speak of the machine: its registers and lines one by one, what a step
may write, the legal states, and runs. -/

namespace Sys2Proof.Machine

/-- A register or line of the block (10_state.md R20, R38). -/
inductive Reg where
  | digit (k : Fin digitCount)
  | dim
  | slot
  | seg
  | anode
  | bs
  | lcnt
  | scnt
  | srOut
  | srIn
  | res
  | sample
  | t0
  | cmpIe
  | line (l : Line)
  deriving DecidableEq, Repr

/-- The level of an output line. -/
def State.level (s : State) : Line → Bool
  | .srDout => s.srDout
  | .srClk => s.srClk
  | .srLoad => s.srLoad
  | .srDinOe => s.srDinOe
  | .btnCom => s.btnCom
  | .senseDrv => s.senseDrv

/-- What a register or line holds, as an unsigned number (00_scope.md R10). -/
def State.value (s : State) : Reg → Nat
  | .digit k => s.digit[k].toNat
  | .dim => s.dim.toNat
  | .slot => s.slot.toNat
  | .seg => s.seg.toNat
  | .anode => s.anode.toNat
  | .bs => s.bs.toNat
  | .lcnt => s.lcnt.toNat
  | .scnt => s.scnt.toNat
  | .srOut => s.srOut.toNat
  | .srIn => s.srIn.toNat
  | .res => s.res.toNat
  | .sample => s.sample.toNat
  | .t0 => s.t0.toNat
  | .cmpIe => s.cmpIe.toNat
  | .line l => (s.level l).toNat

/-- `t` differs from `s` at most in the registers and lines `ws` and in the outputs of the step (rdata and the
trace): every other register and line, the build's parameters and the inputs are as they were. -/
def Keeps (ws : List Reg) (s t : State) : Prop :=
  (∀ r, r ∉ ws → t.value r = s.value r) ∧
    t.build = s.build ∧ t.env = s.env ∧ t.inbox = s.inbox ∧ t.drawIdx = s.drawIdx

/-- The registers and lines a command may write: the "written by" column of R41, and for TICK the lines of R38. -/
def mayWrite : Instr → List Reg
  | .tick =>
    [.slot, .seg, .anode, .bs, .lcnt, .scnt, .srIn, .t0, .cmpIe, .line .srDout, .line .srClk, .line .srLoad,
      .line .srDinOe, .line .btnCom, .line .senseDrv]
  | .clr => [.digit 0, .digit 1, .digit 2]
  | .setdig a _ => if h : a.toNat < digitCount then [.digit ⟨a.toNat, h⟩] else []
  | .setdim _ => [.dim]
  | .setres _ => [.res]
  | .ackbtn => [.bs]
  | .srwr _ => [.srOut]
  | .getdig _ | .getbtn | .srrd | .getadc => []
  | .reservedB | .reservedC | .reservedD | .reservedE | .reservedF => []

/-- The registers the capture may write (R41, R140). -/
def captureWrites : List Reg := [.sample, .cmpIe]

/-- The registers a command's effect may depend on: the "read by" column of R41, and for ACKBTN the byte BS, whose
other bits it keeps (R99). -/
def mayRead : Instr → List Reg
  | .tick => [.digit 0, .digit 1, .digit 2, .dim, .slot, .bs, .lcnt, .scnt, .srOut]
  | .getdig a => if h : a.toNat < digitCount then [.digit ⟨a.toNat, h⟩] else []
  | .getbtn => [.bs]
  | .ackbtn => [.bs]
  | .srrd => [.srIn]
  | .getadc => [.sample]
  | .clr | .setdig _ _ | .setdim _ | .setres _ | .srwr _ => []
  | .reservedB | .reservedC | .reservedD | .reservedE | .reservedF => []

/-- The registers the capture's effect may depend on (R41, R140, R141). -/
def captureReads : List Reg := [.res, .sample, .t0, .cmpIe]

/-- Two states hold the same in the registers `rs`, and have the same parameters and draws. -/
def Agree (rs : List Reg) (s u : State) : Prop :=
  (∀ r ∈ rs, s.value r = u.value r) ∧ s.build = u.build ∧ s.env = u.env

/-- Steps from `s` to `t` and from `u` to `v` had the same effect on the registers `ws`: each holds the same after both,
or both kept it. -/
def SameEffect (ws : List Reg) (s t u v : State) : Prop :=
  ∀ r ∈ ws, t.value r = v.value r ∨ (t.value r = s.value r ∧ v.value r = u.value r)

/-- At most one digit driver is enabled (43_display.md R163). -/
def AtMostOneLit (a : BitVec 3) : Prop := ∀ j k, a.getLsbD j = true → a.getLsbD k = true → j = k

/-- The outcome of a safe step: a next state, and so no fault and no refusal (60_exceptions.md R180). -/
def Goes (o : Host.Outcome State Fault Refusal) : Prop := ∃ t, o = .next t

/-- The outcome of a command that goes to a state meeting `p`, answers `v` to the host, emits no pin event, and writes
at most the registers `ws` of `s`. -/
def Answers (o : Host.Outcome State Fault Refusal) (s : State) (ws : List Reg) (v : Word) (p : State → Prop) : Prop :=
  ∃ t, o = .next t ∧ t.rdata = v ∧ t.trace = [] ∧ Keeps ws s t ∧ p t

/-- Every command word with the opcode `op`, whatever its fields A and B and whatever DATA, is the command that `f`
gives for them (30_encoding.md R71, R74). -/
def Encodes (op : BitVec 4) (f : BitVec 4 → Byte → Word → Instr) : Prop :=
  ∀ (a : BitVec 4) (b : Byte) (d : Word), decode (op ++ a ++ b) d = f a b d

/-- The legal states between steps: the ranges and relations the rules give for them. -/
structure Inv (s : State) : Prop where
  /-- Every parameter is in its range (00_scope.md R8). -/
  build : buildLegal s.build = true
  /-- DIM is a legal level (10_state.md R22). -/
  dim : s.dim.toNat ≤ s.build.dimMax.toNat
  /-- SLOT is at most `N + DIM'` for a legal DIM' (10_state.md R23). -/
  slot : s.slot.toNat ≤ digitCount + s.build.dimMax.toNat
  /-- The lit digit, if any, is digit SLOT (43_display.md R155, R163). -/
  lit : s.anode = 0 ∨ (s.slot.toNat < digitCount ∧ s.anode = 1#3 <<< s.slot.toNat)
  /-- Bits 4:2 of BS read 0 (10_state.md R26). -/
  reserved : reservedOf s.bs = 0
  /-- A press or a long flag has buttons (10_state.md R27). -/
  pressed : pressOf s.bs = true ∨ longOf s.bs = true → btnOf s.bs ≠ 0
  /-- LCNT never exceeds the long-press delay (10_state.md R28). -/
  lcntMax : s.lcnt.toNat ≤ s.build.longSamples.toNat
  /-- In Pressed, LCNT is at least 1 (40_buttons.md R96). -/
  lcntMin : pressOf s.bs = true → longOf s.bs = false → 1 ≤ s.lcnt.toNat
  /-- SCNT is in 1..P_SAMPLE_TICKS (10_state.md R29). -/
  scntMin : 1 ≤ s.scnt.toNat
  /-- SCNT is in 1..P_SAMPLE_TICKS (10_state.md R29). -/
  scntMax : s.scnt.toNat ≤ s.build.sampleTicks.toNat
  /-- Bits of SR_OUT above the width are 0 (10_state.md R30). -/
  srOut : s.srOut.toNat < 2 ^ s.build.srOutW.val
  /-- Bits of SR_IN above the width are 0 (10_state.md R31). -/
  srIn : s.srIn.toNat < 2 ^ s.build.srInW.val
  /-- The shift-register lines are at their idle levels (41_shiftreg.md R115). -/
  idle : s.srDout = true ∧ s.srClk = false ∧ s.srLoad = true ∧ s.srDinOe = true
  /-- The button common line is low (10_state.md R38). -/
  btnCom : s.btnCom = false
  /-- With the sampler not built in, it does nothing (42_analog.md R133). -/
  analogOff : s.build.analogEn = false → s.cmpIe = false ∧ s.sample = 0 ∧ s.senseDrv = true
  /-- The sense pin is released only while every digit is dark (42_analog.md R132, 43_display.md R156). -/
  released : s.senseDrv = false → s.anode = 0

/-- The input is the command TICK, whatever its ignored fields hold (30_encoding.md R72). -/
def isTick (i : Input) : Bool :=
  match i.event with
  | .command cmd _ => fieldOp cmd = 0
  | .trip => false

/-- How many TICKs a list of inputs holds. -/
def tickCount (ins : List Input) : Nat := (ins.filter isTick).length

/-- The outcome of running all inputs `ins` from the registers of `s`, in their order (20_memory.md R57). -/
def runAll (s : State) (ins : List Input) : Host.Outcome State Fault Refusal :=
  Host.Core.run Sys2Proof.core ins.length { s with inbox := ins }

/-- The debouncer run once for each raw sample of a list (40_buttons.md R92). -/
def samples : List (BitVec 2) → State → State
  | [], s => s
  | r :: rs, s => samples rs (debounce r s)

/-- A comparator trip in the middle of a step, with a timer draw of its own and no effect on the outputs or the
draws of the step it interrupts (20_memory.md R58). -/
def preempt (d : Draws) (s : State) : State :=
  { comparatorTrip { s with env := d } with env := s.env, trace := s.trace }

/-- The events of one clock pulse (00_scope.md R12). -/
def pulseEvents : List PinEvent := [.out .srClk true, .wait .clk, .out .srClk false]

/-- The events of the output phase for the `n` low bits of a word, most significant first (41_shiftreg.md R111). -/
def outputEvents (w : Word) : Nat → List PinEvent
  | 0 => []
  | i + 1 => .out .srDout (w.getLsbD i) :: pulseEvents ++ outputEvents w i

/-- The events of `n` clock pulses. -/
def pulsesEvents : Nat → List PinEvent
  | 0 => []
  | n + 1 => pulseEvents ++ pulsesEvents n

/-- The events of an exchange that shifts out `w` (41_shiftreg.md R110 to R114): output phase, park, load strobe and,
where there are inputs, the input phase. -/
def exchangeEvents (b : Build) (w : Word) : List PinEvent :=
  if b.srOutW.val = 0 ∧ b.srInW.val = 0 then []
  else
    outputEvents w b.srOutW.val ++ [.out .srDout true, .out .srLoad false, .out .srLoad true] ++
      if b.srInW.val = 0 then []
      else .out .srDinOe false :: pulsesEvents b.srInW.val ++ [.out .srDinOe true]

/-- One action of a tick that a capture cannot fall inside: a line or output register driven with its event, a wait,
one register written, or the arming, which is one atomic action (42_analog.md R131, 20_memory.md R58). -/
inductive Piece where
  | event (e : PinEvent)
  | slot (v : Byte)
  | bs (v : Byte)
  | lcnt (v : Byte)
  | scnt (v : Byte)
  | srIn (w : Word)
  | arm
  deriving DecidableEq, Repr

/-- What an action does. -/
def Piece.run (s : State) : Piece → State
  | .event (.out l v) => s.out l v
  | .event (.outSeg v) => s.setSeg v
  | .event (.outAnode v) => s.setAnode v
  | .event (.wait t) => s.wait t
  | .slot v => s.setSlot v
  | .bs v => s.setBs v
  | .lcnt v => s.setLcnt v
  | .scnt v => s.setScnt v
  | .srIn w => s.setSrIn w
  | .arm => Sys2Proof.Machine.arm s

/-- A list of actions run one after the other. -/
def runPieces (ps : List Piece) (s : State) : State := ps.foldl Piece.run s

/-- The actions of the exchange of a tick from `s` (41_shiftreg.md R110 to R114). -/
def exchangePieces (s : State) : List Piece :=
  if s.build.srOutW.val = 0 ∧ s.build.srInW.val = 0 then []
  else
    (outputEvents s.srOut s.build.srOutW.val).map .event ++
      [.event (.out .srDout true), .event (.out .srLoad false), .event (.out .srLoad true)] ++
      if s.build.srInW.val = 0 then []
      else
        .event (.out .srDinOe false) :: (pulsesEvents s.build.srInW.val).map .event ++
          [.srIn (exchange s).srIn, .event (.out .srDinOe true)]

/-- The actions of the countdown and the debouncer of a tick from `s` (40_buttons.md R90 to R97). -/
def countdownPieces (s : State) : List Piece :=
  .scnt (s.scnt - 1) ::
    if s.scnt - 1 = 0 then
      [.scnt s.build.sampleTicks, .event (.out .btnCom true), .event (.wait .settle), .event (.out .btnCom false),
        .bs (debounce s.env.btn s).bs, .lcnt (debounce s.env.btn s).lcnt]
    else []

/-- The actions of a tick from `s` before its arming or discharge, the re-seed of SLOT the last of them (43_display.md
R150). -/
def piecesBefore (s : State) : List Piece :=
  .event (.outAnode 0) :: exchangePieces s ++ countdownPieces s ++
    if s.slot = 0 then [.slot (cycleSeed s.dim)] else []

/-- The arming or the discharge of a tick from `s` (42_analog.md R130 to R133). -/
def armPieces (s : State) : List Piece :=
  if s.build.analogEn = true then if s.slot = 0 then [.arm] else [.event (.out .senseDrv true)] else []

/-- The actions of a tick from `s` after its arming or discharge (43_display.md R154, R155). -/
def piecesAfter (s : State) : List Piece :=
  let t := advanceSlot (reseed s)
  .slot t.slot ::
    if h : t.slot.toNat < digitCount then
      [.event (.outSeg s.digit[t.slot.toNat]), .event (.outAnode (1#3 <<< t.slot.toNat))]
    else []

/-- The event is a rising edge of SR_CLK, given that pulses are the only events on it (41_shiftreg.md R115). -/
def isClockRise (e : PinEvent) : Bool := e = .out .srClk true

end Sys2Proof.Machine
end

