-- ==== Sys2Proof/Certificates/Slice0/Obligations.lean ====
section
/-! DEFINITION. The statements for the provers. Each docstring names the rule of spec/ that the statement formalises.
"Derived" or "From" marks what the spec itself marks as derived from other rules, what a rule gives only in part, or a
choice of this model. A rule that carries a decision of 92_eei_decisions.md is a choice the spec states in place of
its source (logs 9 to 14 and 21). -/

open Sys2Proof Sys2Proof.Machine

/-! ### Encoding -/

/-- R71, R72, R74, R75: `CMD = {OP, A, B}`; each of the 16 opcodes selects its command, which reads the fields of its
format and ignores the others. -/
def Obligations.OpcodeMap : Prop :=
  Encodes 0x0 (fun _ _ _ => .tick) ∧ Encodes 0x1 (fun _ _ _ => .clr) ∧ Encodes 0x2 (fun a b _ => .setdig a b) ∧
  Encodes 0x3 (fun a _ _ => .getdig a) ∧ Encodes 0x4 (fun _ b _ => .setdim b) ∧ Encodes 0x5 (fun _ b _ => .setres b) ∧
  Encodes 0x6 (fun _ _ _ => .getbtn) ∧ Encodes 0x7 (fun _ _ _ => .ackbtn) ∧ Encodes 0x8 (fun _ _ d => .srwr d) ∧
  Encodes 0x9 (fun _ _ _ => .srrd) ∧ Encodes 0xA (fun _ _ _ => .getadc) ∧ Encodes 0xB (fun _ _ _ => .reservedB) ∧
  Encodes 0xC (fun _ _ _ => .reservedC) ∧ Encodes 0xD (fun _ _ _ => .reservedD) ∧
  Encodes 0xE (fun _ _ _ => .reservedE) ∧ Encodes 0xF (fun _ _ _ => .reservedF)

/-- Words written out from 95_test_vectors.md 2.1, as transactions: the second word of the last line is DATA. The
order of CMD and DATA in a transaction's bits is the model's (log 16). -/
def Obligations.WrittenOutWordsDecode : Prop :=
  decodeTableWord 16 0x0FFF = some .tick ∧ decodeTableWord 16 0x1ABC = some .clr ∧
  decodeTableWord 16 0x225B = some (.setdig 2 0x5B) ∧ decodeTableWord 16 0x31FF = some (.getdig 1) ∧
  decodeTableWord 16 0x4F02 = some (.setdim 2) ∧ decodeTableWord 16 0x5003 = some (.setres 3) ∧
  decodeTableWord 16 0x6000 = some .getbtn ∧ decodeTableWord 16 0x7000 = some .ackbtn ∧
  decodeTableWord 16 0x9000 = some .srrd ∧ decodeTableWord 16 0xA000 = some .getadc ∧
  decodeTableWord 16 0xC123 = some .reservedC ∧ decodeTableWord 48 0xA58123 = some (.srwr 0xA5)

/-- Decoding what the encoder writes gives the command back, with every operand at every value (R71, R74, R80). -/
def Obligations.DecodeAfterEncode : Prop := ∀ i : Instr, decode (encode i).1 (encode i).2 = i

/-- Derived from R72 and R77: two transactions are the same command exactly when they agree in the opcode and in the
fields its format reads. -/
def Obligations.SameCommandExactlyWhenReadFieldsAgree : Prop :=
  ∀ (c c' : CmdWord) (d d' : Word),
    decode c d = decode c' d' ↔
      fieldOp c = fieldOp c' ∧
      (fieldOp c = 0x2 ∨ fieldOp c = 0x3 → fieldA c = fieldA c') ∧
      (fieldOp c = 0x2 ∨ fieldOp c = 0x4 ∨ fieldOp c = 0x5 → fieldB c = fieldB c') ∧
      (fieldOp c = 0x8 → d = d')

/-- From R80 (what it says of numbers; reading the text is apart, log 15): the assembler refuses exactly the lines
with an operand out of range, and a legal line's CMD is the number `OP * 4096 + A * 256 + B`, with DATA 0 except for
SRWR. -/
def Obligations.AssemblerEncodesLegalLines : Prop :=
  (∀ l : AsmLine, (∃ ws, assemble l = .ok ws) ↔ l.wellFormed = true) ∧
  (∀ l : AsmLine, l.wellFormed = false → assemble l = .error .operandOutOfRange) ∧
  (∀ p q, p ≤ 15 → q ≤ 255 → ∃ w, assemble (.setdig p q) = .ok [(w, 0)] ∧ w.toNat = 0x2000 + p * 256 + q) ∧
  (∀ p, p ≤ 15 → ∃ w, assemble (.getdig p) = .ok [(w, 0)] ∧ w.toNat = 0x3000 + p * 256) ∧
  (∀ q, q ≤ 255 → ∃ w, assemble (.setdim q) = .ok [(w, 0)] ∧ w.toNat = 0x4000 + q) ∧
  (∀ q, q ≤ 255 → ∃ w, assemble (.setres q) = .ok [(w, 0)] ∧ w.toNat = 0x5000 + q) ∧
  (∀ n, n ≤ 0xFFFFFFFF → ∃ v, assemble (.srwr n) = .ok [(0x8000, v)] ∧ v.toNat = n) ∧
  assemble .tick = .ok [(0x0000, 0)] ∧ assemble .clr = .ok [(0x1000, 0)] ∧
  assemble .getbtn = .ok [(0x6000, 0)] ∧ assemble .ackbtn = .ok [(0x7000, 0)] ∧
  assemble .srrd = .ok [(0x9000, 0)] ∧ assemble .getadc = .ok [(0xA000, 0)]

/-- R81: `SETALL p2, p1, p0` is three SETDIGs, position 2 first. -/
def Obligations.SetallIsThreeSetdigs : Prop :=
  ∀ p2 p1 p0, p2 ≤ 255 → p1 ≤ 255 → p0 ≤ 255 →
    ∃ w2 w1 w0, assemble (.setdig 2 p2) = .ok [w2] ∧ assemble (.setdig 1 p1) = .ok [w1] ∧
      assemble (.setdig 0 p0) = .ok [w0] ∧ assemble (.setall p2 p1 p0) = .ok [w2, w1, w0]

/-! ### Steps -/

/-- The step of a state whose next input is a command is `exec` of the decoded command, on the state with that input
taken off the front and its draws those listed, or fresh free ones (R57, R36, logs 1 and 2). With no input the state
stays as it is: the model's choice (log 1). -/
def Obligations.StepRunsDecodedCommand : Prop :=
  ∀ (s : State) (cmd : CmdWord) (data : Word) (d : Draws) (rest : List Input),
    step { s with inbox := ⟨.command cmd data, some d⟩ :: rest } =
      exec (decode cmd data) { s with inbox := rest, env := d } ∧
    step { s with inbox := ⟨.command cmd data, none⟩ :: rest } =
      exec (decode cmd data)
        { s with inbox := rest, env := Config.freeDraws s.drawIdx, drawIdx := s.drawIdx + 1 } ∧
    step { s with inbox := [] } = .next { s with inbox := [] }

/-- R180: no command and no capture stops the block, in any state; and there is no fault to stop it with. -/
def Obligations.NothingStopsTheBlock : Prop :=
  (∀ (i : Instr) (s : State), Goes (exec i s)) ∧ (∀ s : State, Goes (step s)) ∧
    (∀ (s : State) (ins : List Input), Goes (runAll s ins)) ∧ IsEmpty Fault

/-- Derived (R41, "written by"): a command writes at most its own registers and lines, and a comparator trip at most
the capture's; everything else is as it was. -/
def Obligations.WrittenByColumn : Prop :=
  (∀ (i : Instr) (s : State), ∃ t, exec i s = .next t ∧ Keeps (mayWrite i) s t) ∧
    (∀ s : State, Keeps captureWrites s (comparatorTrip s))

/-- Derived (R41, "read by"): what a command answers, emits and writes depends at most on the registers it reads, on
the build and on the draws; the same of the capture. -/
def Obligations.ReadByColumn : Prop :=
  (∀ (i : Instr) (s u t v : State), Agree (mayRead i) s u → exec i s = .next t → exec i u = .next v →
    t.rdata = v.rdata ∧ t.trace = v.trace ∧ SameEffect (mayWrite i) s t u v) ∧
  (∀ s u : State, Agree captureReads s u →
    SameEffect captureWrites s (comparatorTrip s) u (comparatorTrip u))

/-- Derived (R56): a command other than TICK, run again with nothing between, leaves the same state and gives the same
answer; and the four reads change no register. -/
def Obligations.ReadsAndRepeatsChangeNothing : Prop :=
  (∀ (i : Instr) (s t : State), i ≠ .tick → exec i s = .next t → exec i t = .next t) ∧
  (∀ (a : BitVec 4) (s t : State), exec (.getdig a) s = .next t → Keeps [] s t) ∧
  (∀ s t : State, exec .getbtn s = .next t → Keeps [] s t) ∧
  (∀ s t : State, exec .srrd s = .next t → Keeps [] s t) ∧
  (∀ s t : State, exec .getadc s = .next t → Keeps [] s t)

/-- Every step keeps the legal states legal: the ranges and relations of R22, R23, R26 to R31, R96, R115, R133, R155
(see `Inv`). -/
def Obligations.StepKeepsLegalStates : Prop := ∀ s t : State, Inv s → step s = .next t → Inv t

/-- The state after reset is legal, for every legal build (R200). -/
def Obligations.ResetStateIsLegal : Prop :=
  (∀ b : Build, buildLegal b = true → Inv (State.resetOf b)) ∧
    buildLegal Config.defaultBuild = true ∧ State.reset = State.resetOf Config.defaultBuild

/-- Derived (R201): the value of every register and line after reset, for every build. -/
def Obligations.ResetValues : Prop :=
  ∀ b : Build, let s := State.resetOf b
    (∀ k : Fin 3, s.digit[k] = 0x00) ∧ s.dim = 0 ∧ s.slot = 0 ∧ s.seg = 0x00 ∧ s.anode = 0 ∧ s.bs = 0x00 ∧
    s.lcnt = 0 ∧ s.scnt = b.sampleTicks ∧ s.srOut = 0 ∧ s.srIn = 0 ∧ s.res = 7 ∧ s.sample = 0 ∧ s.t0 = 0 ∧
    s.cmpIe = false ∧ s.srDout = true ∧ s.srClk = false ∧ s.srLoad = true ∧ s.srDinOe = true ∧
    s.btnCom = false ∧ s.senseDrv = true ∧ s.build = b

/-- R76: opcodes 0xB to 0xF are reserved commands; such a command changes no register, emits no pin event and returns
0. The no-effect is the spec's choice (D4, log 10). -/
def Obligations.ReservedCommandsDoNothing : Prop :=
  (Encodes 0xB (fun _ _ _ => .reservedB) ∧ Encodes 0xC (fun _ _ _ => .reservedC) ∧
    Encodes 0xD (fun _ _ _ => .reservedD) ∧ Encodes 0xE (fun _ _ _ => .reservedE) ∧
    Encodes 0xF (fun _ _ _ => .reservedF)) ∧
  ∀ s : State,
    Answers (exec .reservedB s) s [] 0 (fun _ => True) ∧ Answers (exec .reservedC s) s [] 0 (fun _ => True) ∧
    Answers (exec .reservedD s) s [] 0 (fun _ => True) ∧ Answers (exec .reservedE s) s [] 0 (fun _ => True) ∧
    Answers (exec .reservedF s) s [] 0 (fun _ => True)

/-! ### The display commands -/

/-- R159: CLR (OP 0x1) writes the blank pattern to every digit and nothing else; SEG and ANODE do not change now. -/
def Obligations.ClrBlanksEveryDigit : Prop :=
  Encodes 0x1 (fun _ _ _ => .clr) ∧
  ∀ s : State, Answers (exec .clr s) s [.digit 0, .digit 1, .digit 2] 0 fun t => ∀ k : Fin 3, t.digit[k] = 0x00

/-- R160: SETDIG (OP 0x2) writes the digit at its position and no other; positions 3 to 15 write nothing; the pattern
shows at the next tick that lights the digit. -/
def Obligations.SetdigWritesOneDigit : Prop :=
  Encodes 0x2 (fun a b _ => .setdig a b) ∧
  ∀ (a : BitVec 4) (b : Byte) (s : State),
    Answers (exec (.setdig a b) s) s [.digit 0, .digit 1, .digit 2] 0 fun t =>
      (∀ k : Fin 3, t.digit[k] = if k.val = a.toNat then b else s.digit[k]) ∧
      (a.toNat < 3 → ∀ u v : State, u.digit = t.digit → u.slot.toNat = a.toNat + 1 → exec .tick u = .next v →
        v.seg = b ∧ v.anode = 1#3 <<< a.toNat)

/-- R161: GETDIG (OP 0x3) returns the digit at its position, zero-extended, or 0 where the position is 3 to 15. The 0
is the spec's choice (D7, log 10). -/
def Obligations.GetdigReturnsDigit : Prop :=
  Encodes 0x3 (fun a _ _ => .getdig a) ∧
  ∀ (a : BitVec 4) (s : State),
    ∃ v, Answers (exec (.getdig a) s) s [] v (fun _ => True) ∧
      v.toNat = if h : a.toNat < 3 then s.digit[a.toNat].toNat else 0

/-- R162: SETDIM (OP 0x4) writes a level up to P_DIM_MAX and ignores a larger one; the level shows at the next re-seed
of SLOT and in no other tick. Ignoring a larger level is the spec's choice (D12, log 10). -/
def Obligations.SetdimWritesLegalLevel : Prop :=
  Encodes 0x4 (fun _ b _ => .setdim b) ∧
  ∀ (b : Byte) (s : State),
    Answers (exec (.setdim b) s) s [.dim] 0 fun t =>
      t.dim = (if b.toNat ≤ s.build.dimMax.toNat then b else s.dim) ∧
      (t.dim.toNat ≤ 251 → ∀ u v : State, u.dim = t.dim → exec .tick u = .next v →
        v.slot.toNat = if u.slot = 0 then 3 + t.dim.toNat else u.slot.toNat - 1)

/-! ### The tick -/

/-- R153 to R155: a tick re-seeds SLOT to `N + 1 + DIM` and arms the sampler when SLOT is 0, decrements it without a
wrap, and lights digit SLOT if there is one, SEG before ANODE; else it is dark and SEG is kept. The digits and DIM are
not written. That a dark tick keeps SEG is the spec's choice (D10, log 11). -/
def Obligations.TickLightsDigitSlot : Prop :=
  ∀ s : State, s.dim.toNat ≤ 251 →
    ∃ t, exec .tick s = .next t ∧ t.rdata = 0 ∧ t.digit = s.digit ∧ t.dim = s.dim ∧
      (s.slot = 0 → s.build.analogEn = true → t.t0 = s.env.timer ∧ t.cmpIe = true ∧ t.senseDrv = false) ∧
      t.slot.toNat = (if s.slot = 0 then 3 + 1 + s.dim.toNat else s.slot.toNat) - 1 ∧
      (∀ h : t.slot.toNat < 3, t.seg = s.digit[t.slot.toNat] ∧ t.anode = 1#3 <<< t.slot.toNat ∧
        [.outSeg t.seg, .outAnode t.anode] <:+ t.trace) ∧
      (3 ≤ t.slot.toNat → t.seg = s.seg ∧ t.anode = 0)

/-- R110 to R113, R152 (and the events of R91, R114, R131, R132, R155): the pin events of a tick, in their order;
after an exchange SR_DOUT and SR_LOAD are high, and without inputs SR_IN is not touched. -/
def Obligations.TickPinEvents : Prop :=
  ∀ s : State, ∃ t, exec .tick s = .next t ∧
    t.trace =
      [.outAnode 0] ++
      (if s.build.srOutW.val = 0 ∧ s.build.srInW.val = 0 then []
        else
          outputEvents s.srOut s.build.srOutW.val ++
          [.out .srDout true, .out .srLoad false, .out .srLoad true] ++
          (if s.build.srInW.val = 0 then []
            else [.out .srDinOe false] ++ pulsesEvents s.build.srInW.val ++ [.out .srDinOe true])) ++
      (if s.scnt = 1 then [.out .btnCom true, .wait .settle, .out .btnCom false] else []) ++
      (if s.build.analogEn = true then [.out .senseDrv (decide (s.slot ≠ 0))] else []) ++
      (if t.slot.toNat < 3 then [.outSeg t.seg, .outAnode t.anode] else []) ∧
    (¬(s.build.srOutW.val = 0 ∧ s.build.srInW.val = 0) → t.srDout = true ∧ t.srLoad = true) ∧
    (s.build.srInW.val = 0 → t.srIn = s.srIn ∧ t.srDinOe = s.srDinOe)

/-- R114: a tick with inputs puts the pin into input mode, makes one clock pulse per input bit, and returns the pin to
output mode; SR_IN then holds the levels drawn, the first one as bit `IW - 1`, with zeros above the width. SR_OUT is
not written. -/
def Obligations.TickSamplesInputWord : Prop :=
  ∀ s : State, 0 < s.build.srInW.val → ∃ t, exec .tick s = .next t ∧ t.srOut = s.srOut ∧
    (∀ k, t.srIn.getLsbD k =
      (decide (k < s.build.srInW.val) && s.env.din.getLsbD (s.build.srInW.val - 1 - k))) ∧
    [.out .srDinOe false] ++ pulsesEvents s.build.srInW.val ++ [.out .srDinOe true] <:+: t.trace ∧
    t.srDinOe = true

/-- Derived (R115): a tick makes one rising clock edge per output and input bit and one load pulse, if there are any
bits, between the last output edge and the first input edge; the exchange's part of its trace has `4 * OW + 3` events
and, with inputs, `3 * IW + 2` more; and the tick leaves the shift-register lines at their idle levels. -/
def Obligations.TickClocksEveryBitOnce : Prop :=
  ∀ s : State, ∃ t, exec .tick s = .next t ∧
    t.trace.countP isClockRise = s.build.srOutW.val + s.build.srInW.val ∧
    t.trace.countP (fun e => e = .out .srLoad false) =
      (if s.build.srOutW.val = 0 ∧ s.build.srInW.val = 0 then 0 else 1) ∧
    (¬(s.build.srOutW.val = 0 ∧ s.build.srInW.val = 0) →
      ∃ l₁ l₂, t.trace = l₁ ++ [.out .srLoad false, .out .srLoad true] ++ l₂ ∧
        l₁.countP isClockRise = s.build.srOutW.val ∧ l₂.countP isClockRise = s.build.srInW.val) ∧
    exchangeEvents s.build s.srOut <:+: t.trace ∧
    (exchange s).trace = s.trace ++ exchangeEvents s.build s.srOut ∧
    (exchangeEvents s.build s.srOut).length =
      (if s.build.srOutW.val = 0 ∧ s.build.srInW.val = 0 then 0
        else 4 * s.build.srOutW.val + 3 +
          if s.build.srInW.val = 0 then 0 else 3 * s.build.srInW.val + 2) ∧
    (s.srDout = true → s.srClk = false → s.srLoad = true → s.srDinOe = true →
      t.srDout = true ∧ t.srClk = false ∧ t.srLoad = true ∧ t.srDinOe = true)

/-- Derived (R118): with equal widths and a loopback fixture, one tick brings SR_OUT back in SR_IN. -/
def Obligations.LoopbackReturnsOutputWord : Prop :=
  ∀ s : State, Inv s → s.build.srOutW = s.build.srInW → 0 < s.build.srInW.val →
    (∀ k, k < s.build.srOutW.val → s.env.din.getLsbD k = s.srOut.getLsbD (s.build.srOutW.val - 1 - k)) →
    ∃ t, exec .tick s = .next t ∧ t.srIn = s.srOut

/-- Derived (R209, R118, 95 S6): a word written by SRWR and looped back shows in SRRD after the tick that follows. The
fixture loops back the SR_OUT of the state `u` that SRWR leaves, from which the tick runs. -/
def Obligations.WrittenWordComesBackAfterTick : Prop :=
  ∀ (s u : State) (w : Word) (d₁ d₂ d₃ : Draws), s.build.srOutW = s.build.srInW → 0 < s.build.srInW.val →
    runAll s [⟨.command 0x8000 w, some d₁⟩] = .next u →
    (∀ k, k < u.build.srOutW.val → d₂.din.getLsbD k = u.srOut.getLsbD (u.build.srOutW.val - 1 - k)) →
    ∃ t, runAll s [⟨.command 0x8000 w, some d₁⟩, ⟨.command 0x0000 0, some d₂⟩, ⟨.command 0x9000 0, some d₃⟩] =
        .next t ∧
      ∀ k, t.rdata.getLsbD k = (decide (k < s.build.srOutW.val) && w.getLsbD k)

/-- R90: a tick counts SCNT down without a wrap; the tick that reaches 0 reloads it and runs the debouncer with the
levels drawn; no other tick changes BS or LCNT. The common line is low after it. -/
def Obligations.TickCountsDownToSample : Prop :=
  ∀ s : State, s.scnt ≠ 0 →
    ∃ t, exec .tick s = .next t ∧
      t.scnt.toNat = (if s.scnt.toNat - 1 = 0 then s.build.sampleTicks.toNat else s.scnt.toNat - 1) ∧
      t.bs = (if s.scnt.toNat - 1 = 0 then (debounce s.env.btn s).bs else s.bs) ∧
      t.lcnt = (if s.scnt.toNat - 1 = 0 then (debounce s.env.btn s).lcnt else s.lcnt) ∧
      (s.btnCom = false → t.btnCom = false)

/-- R131, R132 (and the tick's part of R133): an arming tick draws T0, enables the capture and releases the sense pin;
any other tick only drives it low; without the sampler a tick does neither. SAMPLE and RES are not written. -/
def Obligations.TickArmsOrDischarges : Prop :=
  ∀ s : State, ∃ t, exec .tick s = .next t ∧ t.sample = s.sample ∧ t.res = s.res ∧
    (t.t0, t.cmpIe, t.senseDrv) =
      if s.build.analogEn = true then
        if s.slot = 0 then (s.env.timer, true, false) else (s.t0, s.cmpIe, true)
      else (s.t0, s.cmpIe, s.senseDrv)

/-- Derived (R151, R156, R158): from a re-seed on, whatever commands and trips fall between the ticks, the k-th tick
of the refresh cycle leaves SLOT at `N + 1 + d - k`, with d the DIM of the re-seed, and lights digit SLOT exactly when
SLOT is below N. -/
def Obligations.RefreshCycleCountsDown : Prop :=
  ∀ (s : State) (first : Input) (rest : List Input), Inv s → s.slot = 0 → isTick first = true →
    1 + tickCount rest ≤ 3 + 1 + s.dim.toNat →
    ∃ t, runAll s (first :: rest) = .next t ∧
      t.slot.toNat = 3 + 1 + s.dim.toNat - (1 + tickCount rest) ∧
      t.anode = if t.slot.toNat < 3 then 1#3 <<< t.slot.toNat else 0

/-- Derived (R163): every step leaves at most one digit driver enabled, and a tick does so from any state. -/
def Obligations.AtMostOneDigitLit : Prop :=
  (∀ s t : State, AtMostOneLit s.anode → step s = .next t → AtMostOneLit t.anode) ∧
    (∀ s : State, ∃ t, exec .tick s = .next t ∧ AtMostOneLit t.anode)

/-! ### The buttons -/

/-- R98: GETBTN (OP 0x6) returns BS and changes nothing; bits 4:2 of the answer are 0 in a legal state, and bits 31:8
always. -/
def Obligations.GetbtnReturnsButtonState : Prop :=
  Encodes 0x6 (fun _ _ _ => .getbtn) ∧
  ∀ s : State, ∃ v, Answers (exec .getbtn s) s [] v (fun _ => True) ∧ v.toNat = s.bs.toNat ∧
    (∀ k, 8 ≤ k → v.getLsbD k = false) ∧ (Inv s → v.extractLsb' 2 3 = 0)

/-- R99: ACKBTN (OP 0x7) sets bit 7 of BS and leaves every other bit and register as it was. -/
def Obligations.AckbtnSetsAck : Prop :=
  Encodes 0x7 (fun _ _ _ => .ackbtn) ∧
  ∀ s : State, Answers (exec .ackbtn s) s [.bs] 0 fun t =>
    ∀ k, k < 8 → t.bs.getLsbD k = (decide (k = 7) || s.bs.getLsbD k)

/-- R92 to R97: what a debouncer run makes of BTN, PRESS, LONG, ACK and LCNT, case by case in the order of R92; it
writes nothing else. Cases the source does not settle are the spec's choice (D14, log 12). -/
def Obligations.DebouncerCases : Prop :=
  ∀ (r : BitVec 2) (s : State),
    let t := debounce r s
    let (btn, press, long, ack) := (btnOf s.bs, pressOf s.bs, longOf s.bs, ackOf s.bs)
    (btnOf t.bs, pressOf t.bs, longOf t.bs, ackOf t.bs, t.lcnt) =
      (if r = 0b00 then
        if press = true then
          if long = true ∧ ack = true then (btn, false, true, false, s.lcnt)
          else (btn, false, false, false, s.lcnt)
        else (btn, press, long, ack, s.lcnt)
      else if press = false then (r, true, false, false, s.build.longSamples)
      else if r = 0b11 ∧ btn ≠ 0b11 ∧ long = false then (0b11, press, long, false, s.build.longSamples)
      else if r = btn then
        if long = true then (btn, press, long, ack, s.lcnt)
        else if s.lcnt - 1 = 0 then (btn, press, true, false, 0)
        else (btn, press, false, ack, s.lcnt - 1)
      else (btn, press, long, ack, s.lcnt)) ∧
    reservedOf t.bs = reservedOf s.bs ∧ t.rdata = s.rdata ∧ t.trace = s.trace ∧ Keeps [.bs, .lcnt] s t

/-- Derived (R96, 95 S4): from Idle, `1 + n` samples that show the same buttons give a long-press exactly when n is at
least P_LONG_SAMPLES, and no second one after it. -/
def Obligations.LongPressComesOnceAndNotBefore : Prop :=
  ∀ (s : State) (r : BitVec 2) (n : Nat), buildLegal s.build = true → pressOf s.bs = false → r ≠ 0b00 →
    let t := samples (r :: List.replicate n r) s
    btnOf t.bs = r ∧ pressOf t.bs = true ∧ ackOf t.bs = false ∧
      longOf t.bs = decide (s.build.longSamples.toNat ≤ n) ∧ t.lcnt.toNat = s.build.longSamples.toNat - n

/-- Derived (R90): whatever commands and trips fall between the ticks, n ticks move the countdown n places around its
interval, so the debouncer runs at every P_SAMPLE_TICKS-th tick. -/
def Obligations.SampleIntervalIsExact : Prop :=
  ∀ (s : State) (ins : List Input), Inv s →
    ∃ t, runAll s ins = .next t ∧
      t.scnt.toNat = s.build.sampleTicks.toNat -
        (s.build.sampleTicks.toNat - s.scnt.toNat + tickCount ins) % s.build.sampleTicks.toNat

/-- Derived (R100): a debouncer run that changes BTN, PRESS or LONG leaves ACK 0, and only ACKBTN sets ACK. -/
def Obligations.StateChangeIsUnacknowledged : Prop :=
  (∀ (r : BitVec 2) (s : State),
    (btnOf (debounce r s).bs, pressOf (debounce r s).bs, longOf (debounce r s).bs) ≠
      (btnOf s.bs, pressOf s.bs, longOf s.bs) → ackOf (debounce r s).bs = false) ∧
  (∀ (i : Instr) (s t : State), exec i s = .next t → ackOf s.bs = false → ackOf t.bs = true → i = .ackbtn) ∧
  (∀ s : State, (comparatorTrip s).bs = s.bs)

/-- Derived (R102): what a tick makes of BS, LCNT and SCNT does not depend on the display, the shift registers or the
sampler. -/
def Obligations.DebouncerIgnoresDisplay : Prop :=
  ∀ s u t v : State, s.bs = u.bs → s.lcnt = u.lcnt → s.scnt = u.scnt → s.env.btn = u.env.btn →
    s.build.longSamples = u.build.longSamples → s.build.sampleTicks = u.build.sampleTicks →
    exec .tick s = .next t → exec .tick u = .next v → t.bs = v.bs ∧ t.lcnt = v.lcnt ∧ t.scnt = v.scnt

/-! ### The shift-register commands -/

/-- R116: SRWR (OP 0x8) keeps the low P_SR_OUT_W bits of DATA and drops the rest; the word goes out at the next
tick. -/
def Obligations.SrwrKeepsLowBits : Prop :=
  Encodes 0x8 (fun _ _ d => .srwr d) ∧
  ∀ (data : Word) (s : State), Answers (exec (.srwr data) s) s [.srOut] 0 fun t =>
    (∀ k, t.srOut.getLsbD k = (decide (k < s.build.srOutW.val) && data.getLsbD k)) ∧
    (∀ u v : State, u.srOut = t.srOut → u.build = t.build → 0 < u.build.srOutW.val → exec .tick u = .next v →
      outputEvents t.srOut u.build.srOutW.val <:+: v.trace)

/-- R117: SRRD (OP 0x9) returns SR_IN and changes
nothing; between ticks no command and no trip changes SR_IN, which is 0 after reset, so the answer is the word of the
last exchange that sampled inputs. -/
def Obligations.SrrdReturnsInputWord : Prop :=
  Encodes 0x9 (fun _ _ _ => .srrd) ∧
  (∀ s : State, Answers (exec .srrd s) s [] s.srIn (fun _ => True)) ∧
  (∀ (s : State) (ins : List Input), tickCount ins = 0 → ∃ t, runAll s ins = .next t ∧ t.srIn = s.srIn) ∧
  (∀ b : Build, (State.resetOf b).srIn = 0)

/-- Derived (R117 from R114 and R31): with P_SR_IN_W = 0, SRRD returns 0 in every legal state. -/
def Obligations.SrrdWithoutInputsReturnsZero : Prop :=
  ∀ s : State, Inv s → s.build.srInW.val = 0 → Answers (exec .srrd s) s [] 0 (fun _ => True)

/-! ### The analog sampler -/

/-- R135: SETRES (OP 0x5) writes a level up to 7 where the sampler is built in, and ignores every other; the level
applies from the next capture on. -/
def Obligations.SetresWritesLegalLevel : Prop :=
  Encodes 0x5 (fun _ b _ => .setres b) ∧
  ∀ (b : Byte) (s : State), Answers (exec (.setres b) s) s [.res] 0 fun t =>
    t.res.toNat = (if s.build.analogEn = true ∧ b.toNat ≤ 7 then b.toNat else s.res.toNat) ∧
    (∀ u : State, u.res = t.res → u.cmpIe = true →
      (comparatorTrip u).sample = sampleAfter u.build t.res u.sample (elapsed u.env.timer u.t0))

/-- R136: GETADC (OP 0xA) returns SAMPLE, zero-extended, or 0 where the sampler is not built in, and changes nothing;
no run without a trip changes SAMPLE, which is 0 after reset, so the answer is the value of the latest capture. -/
def Obligations.GetadcReturnsSample : Prop :=
  Encodes 0xA (fun _ _ _ => .getadc) ∧
  (∀ s : State, ∃ v, Answers (exec .getadc s) s [] v (fun _ => True) ∧
    v.toNat = if s.build.analogEn = true then s.sample.toNat else 0) ∧
  (∀ (s : State) (ins : List Input), (∀ i ∈ ins, i.event ≠ .trip) →
    ∃ t, runAll s ins = .next t ∧ t.sample = s.sample) ∧
  (∀ b : Build, (State.resetOf b).sample = 0)

/-- R134, R138, R140: a trip with CMP_IE = 1 clears it and writes SAMPLE as RES selects, from the timer drawn minus T0
modulo 256; there are no pin events, no answer and no other write. -/
def Obligations.CaptureWritesSample : Prop :=
  ∀ (s : State) (d : Draws) (rest : List Input), s.cmpIe = true →
    ∃ t, step { s with inbox := ⟨.trip, some d⟩ :: rest } = .next t ∧ t.cmpIe = false ∧
      (let raw := (d.timer.toNat + 256 - s.t0.toNat) % 256
       t.sample.toNat =
        if s.res = 0 then 0
        else if s.res = 7 then raw
        else min 255 ((3 * s.sample.toNat + pScale s.build s.res (BitVec.ofNat 8 raw) + 2) / 4)) ∧
      t.trace = [] ∧ t.rdata = s.rdata ∧ Keeps captureWrites { s with inbox := rest, env := d } t

/-- Derived (R141; the trip that finds CMP_IE = 0 is the model's reading, log 3): such a trip changes nothing. -/
def Obligations.TripWithoutEnableChangesNothing : Prop :=
  ∀ (s : State) (d : Draws) (rest : List Input), s.cmpIe = false →
    step { s with inbox := ⟨.trip, some d⟩ :: rest } = .next { s with inbox := rest, env := d }

/-- R139: the filter's value, where it saturates, and its steady state; the default scale reaches the saturating
values only at level 6 from 172 on. The weights and the rounding are the spec's choice (D26, log 13). -/
def Obligations.FilterSaturatesExactly : Prop :=
  (∀ (old : Byte) (x : Nat), x ≤ 511 →
    (filter old x).toNat = if 1024 ≤ 3 * old.toNat + x + 2 then 255 else (3 * old.toNat + x + 2) / 4) ∧
  (∀ (old : Byte) (x : Nat), 1024 ≤ 3 * old.toNat + x + 2 → 257 ≤ x) ∧
  (∀ old : Byte, filter old old.toNat = old) ∧
  (∀ (level : BitVec 3) (raw : Byte), level ≠ 0 → level ≠ 7 →
    (257 ≤ pScale Config.defaultBuild level raw ↔ level = 6 ∧ 172 ≤ raw.toNat))

/-- R137: the default scale table, and the range of every legal one. -/
def Obligations.ScaleTables : Prop :=
  (∀ raw : Byte, let n := raw.toNat
    pScale Config.defaultBuild 6 raw = n + n / 2 ∧ pScale Config.defaultBuild 5 raw = n ∧
    pScale Config.defaultBuild 4 raw = n / 2 + n / 4 ∧ pScale Config.defaultBuild 3 raw = n / 2 ∧
    pScale Config.defaultBuild 2 raw = n / 4 + n / 8 ∧ pScale Config.defaultBuild 1 raw = n / 4) ∧
  (∀ (b : Build) (level : BitVec 3) (raw : Byte), buildLegal b = true → pScale b level raw ≤ 511)

/-- R133: without the sampler, no run of commands and trips changes RES, SENSE_DRV, SAMPLE = 0 or CMP_IE = 0, and
GETADC returns 0. That SENSE_DRV is kept is the spec's choice (D31, log 11). -/
def Obligations.AbsentSamplerStaysQuiet : Prop :=
  ∀ (s : State) (ins : List Input), s.build.analogEn = false → s.cmpIe = false → s.sample = 0 →
    ∃ t, runAll s ins = .next t ∧ t.cmpIe = false ∧ t.sample = 0 ∧ t.res = s.res ∧ t.senseDrv = s.senseDrv ∧
      Answers (exec .getadc t) t [] 0 (fun _ => True)

/-- Derived (R142): a trip leaves CMP_IE at 0, and from then until the next arming tick no run of commands and trips
changes SAMPLE or CMP_IE. -/
def Obligations.OneCapturePerArming : Prop :=
  (∀ s : State, (comparatorTrip s).cmpIe = false) ∧
  (∀ (s : State) (ins : List Input), s.cmpIe = false → tickCount ins ≤ s.slot.toNat →
    ∃ t, runAll s ins = .next t ∧ t.cmpIe = false ∧ t.sample = s.sample)

/-- Derived (R58, R184): a tick is its actions run one after the other, and arming is one of them; a capture between any
two actions before the arming or discharge gives the state of a capture just before the tick, and one between any two
after it the state of a capture just after the tick. A capture commutes with every action but the arming and changes
no action of a tick; and the same is said of a capture between two of the six steps of R150 as `tick` writes them. -/
def Obligations.PreemptionGivesNoNewState : Prop :=
  ∀ (d : Draws) (s : State),
    runPieces (piecesBefore s ++ armPieces s ++ piecesAfter s) s.begin = tick s ∧
    (∀ l₁ l₂, piecesBefore s = l₁ ++ l₂ →
      runPieces (l₂ ++ armPieces s ++ piecesAfter s) (preempt d (runPieces l₁ s.begin)) = tick (preempt d s)) ∧
    (∀ l₁ l₂, piecesAfter s = l₁ ++ l₂ →
      runPieces l₂ (preempt d (runPieces (piecesBefore s ++ armPieces s ++ l₁) s.begin)) = preempt d (tick s)) ∧
    (∀ p : Piece, p ≠ .arm → Piece.run (preempt d s) p = preempt d (Piece.run s p)) ∧
    (piecesBefore (preempt d s) = piecesBefore s ∧ armPieces (preempt d s) = armPieces s ∧
      piecesAfter (preempt d s) = piecesAfter s) ∧
    lightDigit (advanceSlot (reseed (sampleCountdown (exchange (preempt d (blankDigits s.begin)))))) =
      tick (preempt d s) ∧
    lightDigit (advanceSlot (reseed (sampleCountdown (preempt d (exchange (blankDigits s.begin)))))) =
      tick (preempt d s) ∧
    lightDigit (advanceSlot (reseed (preempt d (sampleCountdown (exchange (blankDigits s.begin)))))) =
      tick (preempt d s) ∧
    lightDigit (advanceSlot (preempt d (reseed (sampleCountdown (exchange (blankDigits s.begin)))))) =
      preempt d (tick s) ∧
    lightDigit (preempt d (advanceSlot (reseed (sampleCountdown (exchange (blankDigits s.begin)))))) =
      preempt d (tick s)
end

