-- ==== Sys2Proof/Laws/Flags.lean ====
section
/-! SUPPORT. Reading a field of BS after writing one: the field written reads as written, every other field as it
was (10_state.md R26). -/

namespace Sys2Proof.Machine

@[simp] theorem btnOf_withBtn (bs : Byte) (r : BitVec 2) : btnOf (withBtn bs r) = r := by
  ext i hi; interval_cases i <;> simp [btnOf, withBtn]

@[simp] theorem longOf_withBtn (bs : Byte) (r : BitVec 2) : longOf (withBtn bs r) = longOf bs := by
  simp [longOf, withBtn]

@[simp] theorem pressOf_withBtn (bs : Byte) (r : BitVec 2) : pressOf (withBtn bs r) = pressOf bs := by
  simp [pressOf, withBtn]

@[simp] theorem ackOf_withBtn (bs : Byte) (r : BitVec 2) : ackOf (withBtn bs r) = ackOf bs := by
  simp [ackOf, withBtn]

@[simp] theorem reservedOf_withBtn (bs : Byte) (r : BitVec 2) : reservedOf (withBtn bs r) = reservedOf bs := by
  ext i hi; interval_cases i <;> simp [reservedOf, withBtn]

@[simp] theorem btnOf_withLong (bs : Byte) (v : Bool) : btnOf (withLong bs v) = btnOf bs := by
  cases v <;> ext i hi <;> interval_cases i <;> simp [btnOf, withLong]

@[simp] theorem longOf_withLong (bs : Byte) (v : Bool) : longOf (withLong bs v) = v := by
  cases v <;> simp [longOf, withLong]

@[simp] theorem pressOf_withLong (bs : Byte) (v : Bool) : pressOf (withLong bs v) = pressOf bs := by
  cases v <;> simp [pressOf, withLong]

@[simp] theorem ackOf_withLong (bs : Byte) (v : Bool) : ackOf (withLong bs v) = ackOf bs := by
  cases v <;> simp [ackOf, withLong]

@[simp] theorem reservedOf_withLong (bs : Byte) (v : Bool) : reservedOf (withLong bs v) = reservedOf bs := by
  cases v <;> ext i hi <;> interval_cases i <;> simp [reservedOf, withLong]

@[simp] theorem btnOf_withPress (bs : Byte) (v : Bool) : btnOf (withPress bs v) = btnOf bs := by
  cases v <;> ext i hi <;> interval_cases i <;> simp [btnOf, withPress]

@[simp] theorem longOf_withPress (bs : Byte) (v : Bool) : longOf (withPress bs v) = longOf bs := by
  cases v <;> simp [longOf, withPress]

@[simp] theorem pressOf_withPress (bs : Byte) (v : Bool) : pressOf (withPress bs v) = v := by
  cases v <;> simp [pressOf, withPress]

@[simp] theorem ackOf_withPress (bs : Byte) (v : Bool) : ackOf (withPress bs v) = ackOf bs := by
  cases v <;> simp [ackOf, withPress]

@[simp] theorem reservedOf_withPress (bs : Byte) (v : Bool) : reservedOf (withPress bs v) = reservedOf bs := by
  cases v <;> ext i hi <;> interval_cases i <;> simp [reservedOf, withPress]

@[simp] theorem btnOf_withAck (bs : Byte) (v : Bool) : btnOf (withAck bs v) = btnOf bs := by
  cases v <;> ext i hi <;> interval_cases i <;> simp [btnOf, withAck]

@[simp] theorem longOf_withAck (bs : Byte) (v : Bool) : longOf (withAck bs v) = longOf bs := by
  cases v <;> simp [longOf, withAck]

@[simp] theorem pressOf_withAck (bs : Byte) (v : Bool) : pressOf (withAck bs v) = pressOf bs := by
  cases v <;> simp [pressOf, withAck]

@[simp] theorem ackOf_withAck (bs : Byte) (v : Bool) : ackOf (withAck bs v) = v := by
  cases v <;> simp [ackOf, withAck]

@[simp] theorem reservedOf_withAck (bs : Byte) (v : Bool) : reservedOf (withAck bs v) = reservedOf bs := by
  cases v <;> ext i hi <;> interval_cases i <;> simp [reservedOf, withAck]

/-- The fields of BS determine it. -/
theorem bs_ext {a b : Byte} (hb : btnOf a = btnOf b) (hr : reservedOf a = reservedOf b) (hl : longOf a = longOf b)
    (hp : pressOf a = pressOf b) (hk : ackOf a = ackOf b) : a = b := by
  have h0 := congrArg (·.getLsbD 0) hb
  have h1 := congrArg (·.getLsbD 1) hb
  have h2 := congrArg (·.getLsbD 0) hr
  have h3 := congrArg (·.getLsbD 1) hr
  have h4 := congrArg (·.getLsbD 2) hr
  simp only [btnOf, reservedOf, longOf, pressOf, ackOf, BitVec.getLsbD_extractLsb'] at h0 h1 h2 h3 h4 hl hp hk
  apply BitVec.eq_of_getLsbD_eq
  intro i hi
  interval_cases i <;> simp_all

end Sys2Proof.Machine
end

