-- ==== Sys2Proof/Laws/State.lean ====
section
/-! SUPPORT. What each named operation of Machine/Ops.lean does to each field of the state. -/

namespace Sys2Proof.Machine

/-! `setDigits` -/

@[simp] theorem State.setDigits_digit (s : State) (ds : Vector Byte digitCount) : (s.setDigits ds).digit = ds := rfl
@[simp] theorem State.setDigits_dim (s : State) (ds : Vector Byte digitCount) : (s.setDigits ds).dim = s.dim := rfl
@[simp] theorem State.setDigits_slot (s : State) (ds : Vector Byte digitCount) : (s.setDigits ds).slot = s.slot := rfl
@[simp] theorem State.setDigits_seg (s : State) (ds : Vector Byte digitCount) : (s.setDigits ds).seg = s.seg := rfl
@[simp] theorem State.setDigits_anode (s : State) (ds : Vector Byte digitCount) :
    (s.setDigits ds).anode = s.anode := rfl
@[simp] theorem State.setDigits_bs (s : State) (ds : Vector Byte digitCount) : (s.setDigits ds).bs = s.bs := rfl
@[simp] theorem State.setDigits_lcnt (s : State) (ds : Vector Byte digitCount) : (s.setDigits ds).lcnt = s.lcnt := rfl
@[simp] theorem State.setDigits_scnt (s : State) (ds : Vector Byte digitCount) : (s.setDigits ds).scnt = s.scnt := rfl
@[simp] theorem State.setDigits_srOut (s : State) (ds : Vector Byte digitCount) :
    (s.setDigits ds).srOut = s.srOut := rfl
@[simp] theorem State.setDigits_srIn (s : State) (ds : Vector Byte digitCount) : (s.setDigits ds).srIn = s.srIn := rfl
@[simp] theorem State.setDigits_res (s : State) (ds : Vector Byte digitCount) : (s.setDigits ds).res = s.res := rfl
@[simp] theorem State.setDigits_sample (s : State) (ds : Vector Byte digitCount) :
    (s.setDigits ds).sample = s.sample := rfl
@[simp] theorem State.setDigits_t0 (s : State) (ds : Vector Byte digitCount) : (s.setDigits ds).t0 = s.t0 := rfl
@[simp] theorem State.setDigits_cmpIe (s : State) (ds : Vector Byte digitCount) :
    (s.setDigits ds).cmpIe = s.cmpIe := rfl
@[simp] theorem State.setDigits_srDout (s : State) (ds : Vector Byte digitCount) :
    (s.setDigits ds).srDout = s.srDout := rfl
@[simp] theorem State.setDigits_srClk (s : State) (ds : Vector Byte digitCount) :
    (s.setDigits ds).srClk = s.srClk := rfl
@[simp] theorem State.setDigits_srLoad (s : State) (ds : Vector Byte digitCount) :
    (s.setDigits ds).srLoad = s.srLoad := rfl
@[simp] theorem State.setDigits_srDinOe (s : State) (ds : Vector Byte digitCount) :
    (s.setDigits ds).srDinOe = s.srDinOe := rfl
@[simp] theorem State.setDigits_btnCom (s : State) (ds : Vector Byte digitCount) :
    (s.setDigits ds).btnCom = s.btnCom := rfl
@[simp] theorem State.setDigits_senseDrv (s : State) (ds : Vector Byte digitCount) :
    (s.setDigits ds).senseDrv = s.senseDrv := rfl
@[simp] theorem State.setDigits_rdata (s : State) (ds : Vector Byte digitCount) :
    (s.setDigits ds).rdata = s.rdata := rfl
@[simp] theorem State.setDigits_trace (s : State) (ds : Vector Byte digitCount) :
    (s.setDigits ds).trace = s.trace := rfl
@[simp] theorem State.setDigits_build (s : State) (ds : Vector Byte digitCount) :
    (s.setDigits ds).build = s.build := rfl
@[simp] theorem State.setDigits_env (s : State) (ds : Vector Byte digitCount) : (s.setDigits ds).env = s.env := rfl
@[simp] theorem State.setDigits_inbox (s : State) (ds : Vector Byte digitCount) :
    (s.setDigits ds).inbox = s.inbox := rfl
@[simp] theorem State.setDigits_drawIdx (s : State) (ds : Vector Byte digitCount) :
    (s.setDigits ds).drawIdx = s.drawIdx := rfl

/-! `setDim` -/

@[simp] theorem State.setDim_digit (s : State) (v : Byte) : (s.setDim v).digit = s.digit := rfl
@[simp] theorem State.setDim_dim (s : State) (v : Byte) : (s.setDim v).dim = v := rfl
@[simp] theorem State.setDim_slot (s : State) (v : Byte) : (s.setDim v).slot = s.slot := rfl
@[simp] theorem State.setDim_seg (s : State) (v : Byte) : (s.setDim v).seg = s.seg := rfl
@[simp] theorem State.setDim_anode (s : State) (v : Byte) : (s.setDim v).anode = s.anode := rfl
@[simp] theorem State.setDim_bs (s : State) (v : Byte) : (s.setDim v).bs = s.bs := rfl
@[simp] theorem State.setDim_lcnt (s : State) (v : Byte) : (s.setDim v).lcnt = s.lcnt := rfl
@[simp] theorem State.setDim_scnt (s : State) (v : Byte) : (s.setDim v).scnt = s.scnt := rfl
@[simp] theorem State.setDim_srOut (s : State) (v : Byte) : (s.setDim v).srOut = s.srOut := rfl
@[simp] theorem State.setDim_srIn (s : State) (v : Byte) : (s.setDim v).srIn = s.srIn := rfl
@[simp] theorem State.setDim_res (s : State) (v : Byte) : (s.setDim v).res = s.res := rfl
@[simp] theorem State.setDim_sample (s : State) (v : Byte) : (s.setDim v).sample = s.sample := rfl
@[simp] theorem State.setDim_t0 (s : State) (v : Byte) : (s.setDim v).t0 = s.t0 := rfl
@[simp] theorem State.setDim_cmpIe (s : State) (v : Byte) : (s.setDim v).cmpIe = s.cmpIe := rfl
@[simp] theorem State.setDim_srDout (s : State) (v : Byte) : (s.setDim v).srDout = s.srDout := rfl
@[simp] theorem State.setDim_srClk (s : State) (v : Byte) : (s.setDim v).srClk = s.srClk := rfl
@[simp] theorem State.setDim_srLoad (s : State) (v : Byte) : (s.setDim v).srLoad = s.srLoad := rfl
@[simp] theorem State.setDim_srDinOe (s : State) (v : Byte) : (s.setDim v).srDinOe = s.srDinOe := rfl
@[simp] theorem State.setDim_btnCom (s : State) (v : Byte) : (s.setDim v).btnCom = s.btnCom := rfl
@[simp] theorem State.setDim_senseDrv (s : State) (v : Byte) : (s.setDim v).senseDrv = s.senseDrv := rfl
@[simp] theorem State.setDim_rdata (s : State) (v : Byte) : (s.setDim v).rdata = s.rdata := rfl
@[simp] theorem State.setDim_trace (s : State) (v : Byte) : (s.setDim v).trace = s.trace := rfl
@[simp] theorem State.setDim_build (s : State) (v : Byte) : (s.setDim v).build = s.build := rfl
@[simp] theorem State.setDim_env (s : State) (v : Byte) : (s.setDim v).env = s.env := rfl
@[simp] theorem State.setDim_inbox (s : State) (v : Byte) : (s.setDim v).inbox = s.inbox := rfl
@[simp] theorem State.setDim_drawIdx (s : State) (v : Byte) : (s.setDim v).drawIdx = s.drawIdx := rfl

/-! `setSlot` -/

@[simp] theorem State.setSlot_digit (s : State) (v : Byte) : (s.setSlot v).digit = s.digit := rfl
@[simp] theorem State.setSlot_dim (s : State) (v : Byte) : (s.setSlot v).dim = s.dim := rfl
@[simp] theorem State.setSlot_slot (s : State) (v : Byte) : (s.setSlot v).slot = v := rfl
@[simp] theorem State.setSlot_seg (s : State) (v : Byte) : (s.setSlot v).seg = s.seg := rfl
@[simp] theorem State.setSlot_anode (s : State) (v : Byte) : (s.setSlot v).anode = s.anode := rfl
@[simp] theorem State.setSlot_bs (s : State) (v : Byte) : (s.setSlot v).bs = s.bs := rfl
@[simp] theorem State.setSlot_lcnt (s : State) (v : Byte) : (s.setSlot v).lcnt = s.lcnt := rfl
@[simp] theorem State.setSlot_scnt (s : State) (v : Byte) : (s.setSlot v).scnt = s.scnt := rfl
@[simp] theorem State.setSlot_srOut (s : State) (v : Byte) : (s.setSlot v).srOut = s.srOut := rfl
@[simp] theorem State.setSlot_srIn (s : State) (v : Byte) : (s.setSlot v).srIn = s.srIn := rfl
@[simp] theorem State.setSlot_res (s : State) (v : Byte) : (s.setSlot v).res = s.res := rfl
@[simp] theorem State.setSlot_sample (s : State) (v : Byte) : (s.setSlot v).sample = s.sample := rfl
@[simp] theorem State.setSlot_t0 (s : State) (v : Byte) : (s.setSlot v).t0 = s.t0 := rfl
@[simp] theorem State.setSlot_cmpIe (s : State) (v : Byte) : (s.setSlot v).cmpIe = s.cmpIe := rfl
@[simp] theorem State.setSlot_srDout (s : State) (v : Byte) : (s.setSlot v).srDout = s.srDout := rfl
@[simp] theorem State.setSlot_srClk (s : State) (v : Byte) : (s.setSlot v).srClk = s.srClk := rfl
@[simp] theorem State.setSlot_srLoad (s : State) (v : Byte) : (s.setSlot v).srLoad = s.srLoad := rfl
@[simp] theorem State.setSlot_srDinOe (s : State) (v : Byte) : (s.setSlot v).srDinOe = s.srDinOe := rfl
@[simp] theorem State.setSlot_btnCom (s : State) (v : Byte) : (s.setSlot v).btnCom = s.btnCom := rfl
@[simp] theorem State.setSlot_senseDrv (s : State) (v : Byte) : (s.setSlot v).senseDrv = s.senseDrv := rfl
@[simp] theorem State.setSlot_rdata (s : State) (v : Byte) : (s.setSlot v).rdata = s.rdata := rfl
@[simp] theorem State.setSlot_trace (s : State) (v : Byte) : (s.setSlot v).trace = s.trace := rfl
@[simp] theorem State.setSlot_build (s : State) (v : Byte) : (s.setSlot v).build = s.build := rfl
@[simp] theorem State.setSlot_env (s : State) (v : Byte) : (s.setSlot v).env = s.env := rfl
@[simp] theorem State.setSlot_inbox (s : State) (v : Byte) : (s.setSlot v).inbox = s.inbox := rfl
@[simp] theorem State.setSlot_drawIdx (s : State) (v : Byte) : (s.setSlot v).drawIdx = s.drawIdx := rfl

/-! `setBs` -/

@[simp] theorem State.setBs_digit (s : State) (v : Byte) : (s.setBs v).digit = s.digit := rfl
@[simp] theorem State.setBs_dim (s : State) (v : Byte) : (s.setBs v).dim = s.dim := rfl
@[simp] theorem State.setBs_slot (s : State) (v : Byte) : (s.setBs v).slot = s.slot := rfl
@[simp] theorem State.setBs_seg (s : State) (v : Byte) : (s.setBs v).seg = s.seg := rfl
@[simp] theorem State.setBs_anode (s : State) (v : Byte) : (s.setBs v).anode = s.anode := rfl
@[simp] theorem State.setBs_bs (s : State) (v : Byte) : (s.setBs v).bs = v := rfl
@[simp] theorem State.setBs_lcnt (s : State) (v : Byte) : (s.setBs v).lcnt = s.lcnt := rfl
@[simp] theorem State.setBs_scnt (s : State) (v : Byte) : (s.setBs v).scnt = s.scnt := rfl
@[simp] theorem State.setBs_srOut (s : State) (v : Byte) : (s.setBs v).srOut = s.srOut := rfl
@[simp] theorem State.setBs_srIn (s : State) (v : Byte) : (s.setBs v).srIn = s.srIn := rfl
@[simp] theorem State.setBs_res (s : State) (v : Byte) : (s.setBs v).res = s.res := rfl
@[simp] theorem State.setBs_sample (s : State) (v : Byte) : (s.setBs v).sample = s.sample := rfl
@[simp] theorem State.setBs_t0 (s : State) (v : Byte) : (s.setBs v).t0 = s.t0 := rfl
@[simp] theorem State.setBs_cmpIe (s : State) (v : Byte) : (s.setBs v).cmpIe = s.cmpIe := rfl
@[simp] theorem State.setBs_srDout (s : State) (v : Byte) : (s.setBs v).srDout = s.srDout := rfl
@[simp] theorem State.setBs_srClk (s : State) (v : Byte) : (s.setBs v).srClk = s.srClk := rfl
@[simp] theorem State.setBs_srLoad (s : State) (v : Byte) : (s.setBs v).srLoad = s.srLoad := rfl
@[simp] theorem State.setBs_srDinOe (s : State) (v : Byte) : (s.setBs v).srDinOe = s.srDinOe := rfl
@[simp] theorem State.setBs_btnCom (s : State) (v : Byte) : (s.setBs v).btnCom = s.btnCom := rfl
@[simp] theorem State.setBs_senseDrv (s : State) (v : Byte) : (s.setBs v).senseDrv = s.senseDrv := rfl
@[simp] theorem State.setBs_rdata (s : State) (v : Byte) : (s.setBs v).rdata = s.rdata := rfl
@[simp] theorem State.setBs_trace (s : State) (v : Byte) : (s.setBs v).trace = s.trace := rfl
@[simp] theorem State.setBs_build (s : State) (v : Byte) : (s.setBs v).build = s.build := rfl
@[simp] theorem State.setBs_env (s : State) (v : Byte) : (s.setBs v).env = s.env := rfl
@[simp] theorem State.setBs_inbox (s : State) (v : Byte) : (s.setBs v).inbox = s.inbox := rfl
@[simp] theorem State.setBs_drawIdx (s : State) (v : Byte) : (s.setBs v).drawIdx = s.drawIdx := rfl

/-! `setLcnt` -/

@[simp] theorem State.setLcnt_digit (s : State) (v : Byte) : (s.setLcnt v).digit = s.digit := rfl
@[simp] theorem State.setLcnt_dim (s : State) (v : Byte) : (s.setLcnt v).dim = s.dim := rfl
@[simp] theorem State.setLcnt_slot (s : State) (v : Byte) : (s.setLcnt v).slot = s.slot := rfl
@[simp] theorem State.setLcnt_seg (s : State) (v : Byte) : (s.setLcnt v).seg = s.seg := rfl
@[simp] theorem State.setLcnt_anode (s : State) (v : Byte) : (s.setLcnt v).anode = s.anode := rfl
@[simp] theorem State.setLcnt_bs (s : State) (v : Byte) : (s.setLcnt v).bs = s.bs := rfl
@[simp] theorem State.setLcnt_lcnt (s : State) (v : Byte) : (s.setLcnt v).lcnt = v := rfl
@[simp] theorem State.setLcnt_scnt (s : State) (v : Byte) : (s.setLcnt v).scnt = s.scnt := rfl
@[simp] theorem State.setLcnt_srOut (s : State) (v : Byte) : (s.setLcnt v).srOut = s.srOut := rfl
@[simp] theorem State.setLcnt_srIn (s : State) (v : Byte) : (s.setLcnt v).srIn = s.srIn := rfl
@[simp] theorem State.setLcnt_res (s : State) (v : Byte) : (s.setLcnt v).res = s.res := rfl
@[simp] theorem State.setLcnt_sample (s : State) (v : Byte) : (s.setLcnt v).sample = s.sample := rfl
@[simp] theorem State.setLcnt_t0 (s : State) (v : Byte) : (s.setLcnt v).t0 = s.t0 := rfl
@[simp] theorem State.setLcnt_cmpIe (s : State) (v : Byte) : (s.setLcnt v).cmpIe = s.cmpIe := rfl
@[simp] theorem State.setLcnt_srDout (s : State) (v : Byte) : (s.setLcnt v).srDout = s.srDout := rfl
@[simp] theorem State.setLcnt_srClk (s : State) (v : Byte) : (s.setLcnt v).srClk = s.srClk := rfl
@[simp] theorem State.setLcnt_srLoad (s : State) (v : Byte) : (s.setLcnt v).srLoad = s.srLoad := rfl
@[simp] theorem State.setLcnt_srDinOe (s : State) (v : Byte) : (s.setLcnt v).srDinOe = s.srDinOe := rfl
@[simp] theorem State.setLcnt_btnCom (s : State) (v : Byte) : (s.setLcnt v).btnCom = s.btnCom := rfl
@[simp] theorem State.setLcnt_senseDrv (s : State) (v : Byte) : (s.setLcnt v).senseDrv = s.senseDrv := rfl
@[simp] theorem State.setLcnt_rdata (s : State) (v : Byte) : (s.setLcnt v).rdata = s.rdata := rfl
@[simp] theorem State.setLcnt_trace (s : State) (v : Byte) : (s.setLcnt v).trace = s.trace := rfl
@[simp] theorem State.setLcnt_build (s : State) (v : Byte) : (s.setLcnt v).build = s.build := rfl
@[simp] theorem State.setLcnt_env (s : State) (v : Byte) : (s.setLcnt v).env = s.env := rfl
@[simp] theorem State.setLcnt_inbox (s : State) (v : Byte) : (s.setLcnt v).inbox = s.inbox := rfl
@[simp] theorem State.setLcnt_drawIdx (s : State) (v : Byte) : (s.setLcnt v).drawIdx = s.drawIdx := rfl

/-! `setScnt` -/

@[simp] theorem State.setScnt_digit (s : State) (v : Byte) : (s.setScnt v).digit = s.digit := rfl
@[simp] theorem State.setScnt_dim (s : State) (v : Byte) : (s.setScnt v).dim = s.dim := rfl
@[simp] theorem State.setScnt_slot (s : State) (v : Byte) : (s.setScnt v).slot = s.slot := rfl
@[simp] theorem State.setScnt_seg (s : State) (v : Byte) : (s.setScnt v).seg = s.seg := rfl
@[simp] theorem State.setScnt_anode (s : State) (v : Byte) : (s.setScnt v).anode = s.anode := rfl
@[simp] theorem State.setScnt_bs (s : State) (v : Byte) : (s.setScnt v).bs = s.bs := rfl
@[simp] theorem State.setScnt_lcnt (s : State) (v : Byte) : (s.setScnt v).lcnt = s.lcnt := rfl
@[simp] theorem State.setScnt_scnt (s : State) (v : Byte) : (s.setScnt v).scnt = v := rfl
@[simp] theorem State.setScnt_srOut (s : State) (v : Byte) : (s.setScnt v).srOut = s.srOut := rfl
@[simp] theorem State.setScnt_srIn (s : State) (v : Byte) : (s.setScnt v).srIn = s.srIn := rfl
@[simp] theorem State.setScnt_res (s : State) (v : Byte) : (s.setScnt v).res = s.res := rfl
@[simp] theorem State.setScnt_sample (s : State) (v : Byte) : (s.setScnt v).sample = s.sample := rfl
@[simp] theorem State.setScnt_t0 (s : State) (v : Byte) : (s.setScnt v).t0 = s.t0 := rfl
@[simp] theorem State.setScnt_cmpIe (s : State) (v : Byte) : (s.setScnt v).cmpIe = s.cmpIe := rfl
@[simp] theorem State.setScnt_srDout (s : State) (v : Byte) : (s.setScnt v).srDout = s.srDout := rfl
@[simp] theorem State.setScnt_srClk (s : State) (v : Byte) : (s.setScnt v).srClk = s.srClk := rfl
@[simp] theorem State.setScnt_srLoad (s : State) (v : Byte) : (s.setScnt v).srLoad = s.srLoad := rfl
@[simp] theorem State.setScnt_srDinOe (s : State) (v : Byte) : (s.setScnt v).srDinOe = s.srDinOe := rfl
@[simp] theorem State.setScnt_btnCom (s : State) (v : Byte) : (s.setScnt v).btnCom = s.btnCom := rfl
@[simp] theorem State.setScnt_senseDrv (s : State) (v : Byte) : (s.setScnt v).senseDrv = s.senseDrv := rfl
@[simp] theorem State.setScnt_rdata (s : State) (v : Byte) : (s.setScnt v).rdata = s.rdata := rfl
@[simp] theorem State.setScnt_trace (s : State) (v : Byte) : (s.setScnt v).trace = s.trace := rfl
@[simp] theorem State.setScnt_build (s : State) (v : Byte) : (s.setScnt v).build = s.build := rfl
@[simp] theorem State.setScnt_env (s : State) (v : Byte) : (s.setScnt v).env = s.env := rfl
@[simp] theorem State.setScnt_inbox (s : State) (v : Byte) : (s.setScnt v).inbox = s.inbox := rfl
@[simp] theorem State.setScnt_drawIdx (s : State) (v : Byte) : (s.setScnt v).drawIdx = s.drawIdx := rfl

/-! `setSrOut` -/

@[simp] theorem State.setSrOut_digit (s : State) (v : Word) : (s.setSrOut v).digit = s.digit := rfl
@[simp] theorem State.setSrOut_dim (s : State) (v : Word) : (s.setSrOut v).dim = s.dim := rfl
@[simp] theorem State.setSrOut_slot (s : State) (v : Word) : (s.setSrOut v).slot = s.slot := rfl
@[simp] theorem State.setSrOut_seg (s : State) (v : Word) : (s.setSrOut v).seg = s.seg := rfl
@[simp] theorem State.setSrOut_anode (s : State) (v : Word) : (s.setSrOut v).anode = s.anode := rfl
@[simp] theorem State.setSrOut_bs (s : State) (v : Word) : (s.setSrOut v).bs = s.bs := rfl
@[simp] theorem State.setSrOut_lcnt (s : State) (v : Word) : (s.setSrOut v).lcnt = s.lcnt := rfl
@[simp] theorem State.setSrOut_scnt (s : State) (v : Word) : (s.setSrOut v).scnt = s.scnt := rfl
@[simp] theorem State.setSrOut_srOut (s : State) (v : Word) : (s.setSrOut v).srOut = v := rfl
@[simp] theorem State.setSrOut_srIn (s : State) (v : Word) : (s.setSrOut v).srIn = s.srIn := rfl
@[simp] theorem State.setSrOut_res (s : State) (v : Word) : (s.setSrOut v).res = s.res := rfl
@[simp] theorem State.setSrOut_sample (s : State) (v : Word) : (s.setSrOut v).sample = s.sample := rfl
@[simp] theorem State.setSrOut_t0 (s : State) (v : Word) : (s.setSrOut v).t0 = s.t0 := rfl
@[simp] theorem State.setSrOut_cmpIe (s : State) (v : Word) : (s.setSrOut v).cmpIe = s.cmpIe := rfl
@[simp] theorem State.setSrOut_srDout (s : State) (v : Word) : (s.setSrOut v).srDout = s.srDout := rfl
@[simp] theorem State.setSrOut_srClk (s : State) (v : Word) : (s.setSrOut v).srClk = s.srClk := rfl
@[simp] theorem State.setSrOut_srLoad (s : State) (v : Word) : (s.setSrOut v).srLoad = s.srLoad := rfl
@[simp] theorem State.setSrOut_srDinOe (s : State) (v : Word) : (s.setSrOut v).srDinOe = s.srDinOe := rfl
@[simp] theorem State.setSrOut_btnCom (s : State) (v : Word) : (s.setSrOut v).btnCom = s.btnCom := rfl
@[simp] theorem State.setSrOut_senseDrv (s : State) (v : Word) : (s.setSrOut v).senseDrv = s.senseDrv := rfl
@[simp] theorem State.setSrOut_rdata (s : State) (v : Word) : (s.setSrOut v).rdata = s.rdata := rfl
@[simp] theorem State.setSrOut_trace (s : State) (v : Word) : (s.setSrOut v).trace = s.trace := rfl
@[simp] theorem State.setSrOut_build (s : State) (v : Word) : (s.setSrOut v).build = s.build := rfl
@[simp] theorem State.setSrOut_env (s : State) (v : Word) : (s.setSrOut v).env = s.env := rfl
@[simp] theorem State.setSrOut_inbox (s : State) (v : Word) : (s.setSrOut v).inbox = s.inbox := rfl
@[simp] theorem State.setSrOut_drawIdx (s : State) (v : Word) : (s.setSrOut v).drawIdx = s.drawIdx := rfl

/-! `setSrIn` -/

@[simp] theorem State.setSrIn_digit (s : State) (v : Word) : (s.setSrIn v).digit = s.digit := rfl
@[simp] theorem State.setSrIn_dim (s : State) (v : Word) : (s.setSrIn v).dim = s.dim := rfl
@[simp] theorem State.setSrIn_slot (s : State) (v : Word) : (s.setSrIn v).slot = s.slot := rfl
@[simp] theorem State.setSrIn_seg (s : State) (v : Word) : (s.setSrIn v).seg = s.seg := rfl
@[simp] theorem State.setSrIn_anode (s : State) (v : Word) : (s.setSrIn v).anode = s.anode := rfl
@[simp] theorem State.setSrIn_bs (s : State) (v : Word) : (s.setSrIn v).bs = s.bs := rfl
@[simp] theorem State.setSrIn_lcnt (s : State) (v : Word) : (s.setSrIn v).lcnt = s.lcnt := rfl
@[simp] theorem State.setSrIn_scnt (s : State) (v : Word) : (s.setSrIn v).scnt = s.scnt := rfl
@[simp] theorem State.setSrIn_srOut (s : State) (v : Word) : (s.setSrIn v).srOut = s.srOut := rfl
@[simp] theorem State.setSrIn_srIn (s : State) (v : Word) : (s.setSrIn v).srIn = v := rfl
@[simp] theorem State.setSrIn_res (s : State) (v : Word) : (s.setSrIn v).res = s.res := rfl
@[simp] theorem State.setSrIn_sample (s : State) (v : Word) : (s.setSrIn v).sample = s.sample := rfl
@[simp] theorem State.setSrIn_t0 (s : State) (v : Word) : (s.setSrIn v).t0 = s.t0 := rfl
@[simp] theorem State.setSrIn_cmpIe (s : State) (v : Word) : (s.setSrIn v).cmpIe = s.cmpIe := rfl
@[simp] theorem State.setSrIn_srDout (s : State) (v : Word) : (s.setSrIn v).srDout = s.srDout := rfl
@[simp] theorem State.setSrIn_srClk (s : State) (v : Word) : (s.setSrIn v).srClk = s.srClk := rfl
@[simp] theorem State.setSrIn_srLoad (s : State) (v : Word) : (s.setSrIn v).srLoad = s.srLoad := rfl
@[simp] theorem State.setSrIn_srDinOe (s : State) (v : Word) : (s.setSrIn v).srDinOe = s.srDinOe := rfl
@[simp] theorem State.setSrIn_btnCom (s : State) (v : Word) : (s.setSrIn v).btnCom = s.btnCom := rfl
@[simp] theorem State.setSrIn_senseDrv (s : State) (v : Word) : (s.setSrIn v).senseDrv = s.senseDrv := rfl
@[simp] theorem State.setSrIn_rdata (s : State) (v : Word) : (s.setSrIn v).rdata = s.rdata := rfl
@[simp] theorem State.setSrIn_trace (s : State) (v : Word) : (s.setSrIn v).trace = s.trace := rfl
@[simp] theorem State.setSrIn_build (s : State) (v : Word) : (s.setSrIn v).build = s.build := rfl
@[simp] theorem State.setSrIn_env (s : State) (v : Word) : (s.setSrIn v).env = s.env := rfl
@[simp] theorem State.setSrIn_inbox (s : State) (v : Word) : (s.setSrIn v).inbox = s.inbox := rfl
@[simp] theorem State.setSrIn_drawIdx (s : State) (v : Word) : (s.setSrIn v).drawIdx = s.drawIdx := rfl

/-! `setRes` -/

@[simp] theorem State.setRes_digit (s : State) (v : BitVec 3) : (s.setRes v).digit = s.digit := rfl
@[simp] theorem State.setRes_dim (s : State) (v : BitVec 3) : (s.setRes v).dim = s.dim := rfl
@[simp] theorem State.setRes_slot (s : State) (v : BitVec 3) : (s.setRes v).slot = s.slot := rfl
@[simp] theorem State.setRes_seg (s : State) (v : BitVec 3) : (s.setRes v).seg = s.seg := rfl
@[simp] theorem State.setRes_anode (s : State) (v : BitVec 3) : (s.setRes v).anode = s.anode := rfl
@[simp] theorem State.setRes_bs (s : State) (v : BitVec 3) : (s.setRes v).bs = s.bs := rfl
@[simp] theorem State.setRes_lcnt (s : State) (v : BitVec 3) : (s.setRes v).lcnt = s.lcnt := rfl
@[simp] theorem State.setRes_scnt (s : State) (v : BitVec 3) : (s.setRes v).scnt = s.scnt := rfl
@[simp] theorem State.setRes_srOut (s : State) (v : BitVec 3) : (s.setRes v).srOut = s.srOut := rfl
@[simp] theorem State.setRes_srIn (s : State) (v : BitVec 3) : (s.setRes v).srIn = s.srIn := rfl
@[simp] theorem State.setRes_res (s : State) (v : BitVec 3) : (s.setRes v).res = v := rfl
@[simp] theorem State.setRes_sample (s : State) (v : BitVec 3) : (s.setRes v).sample = s.sample := rfl
@[simp] theorem State.setRes_t0 (s : State) (v : BitVec 3) : (s.setRes v).t0 = s.t0 := rfl
@[simp] theorem State.setRes_cmpIe (s : State) (v : BitVec 3) : (s.setRes v).cmpIe = s.cmpIe := rfl
@[simp] theorem State.setRes_srDout (s : State) (v : BitVec 3) : (s.setRes v).srDout = s.srDout := rfl
@[simp] theorem State.setRes_srClk (s : State) (v : BitVec 3) : (s.setRes v).srClk = s.srClk := rfl
@[simp] theorem State.setRes_srLoad (s : State) (v : BitVec 3) : (s.setRes v).srLoad = s.srLoad := rfl
@[simp] theorem State.setRes_srDinOe (s : State) (v : BitVec 3) : (s.setRes v).srDinOe = s.srDinOe := rfl
@[simp] theorem State.setRes_btnCom (s : State) (v : BitVec 3) : (s.setRes v).btnCom = s.btnCom := rfl
@[simp] theorem State.setRes_senseDrv (s : State) (v : BitVec 3) : (s.setRes v).senseDrv = s.senseDrv := rfl
@[simp] theorem State.setRes_rdata (s : State) (v : BitVec 3) : (s.setRes v).rdata = s.rdata := rfl
@[simp] theorem State.setRes_trace (s : State) (v : BitVec 3) : (s.setRes v).trace = s.trace := rfl
@[simp] theorem State.setRes_build (s : State) (v : BitVec 3) : (s.setRes v).build = s.build := rfl
@[simp] theorem State.setRes_env (s : State) (v : BitVec 3) : (s.setRes v).env = s.env := rfl
@[simp] theorem State.setRes_inbox (s : State) (v : BitVec 3) : (s.setRes v).inbox = s.inbox := rfl
@[simp] theorem State.setRes_drawIdx (s : State) (v : BitVec 3) : (s.setRes v).drawIdx = s.drawIdx := rfl

/-! `setSample` -/

@[simp] theorem State.setSample_digit (s : State) (v : Byte) : (s.setSample v).digit = s.digit := rfl
@[simp] theorem State.setSample_dim (s : State) (v : Byte) : (s.setSample v).dim = s.dim := rfl
@[simp] theorem State.setSample_slot (s : State) (v : Byte) : (s.setSample v).slot = s.slot := rfl
@[simp] theorem State.setSample_seg (s : State) (v : Byte) : (s.setSample v).seg = s.seg := rfl
@[simp] theorem State.setSample_anode (s : State) (v : Byte) : (s.setSample v).anode = s.anode := rfl
@[simp] theorem State.setSample_bs (s : State) (v : Byte) : (s.setSample v).bs = s.bs := rfl
@[simp] theorem State.setSample_lcnt (s : State) (v : Byte) : (s.setSample v).lcnt = s.lcnt := rfl
@[simp] theorem State.setSample_scnt (s : State) (v : Byte) : (s.setSample v).scnt = s.scnt := rfl
@[simp] theorem State.setSample_srOut (s : State) (v : Byte) : (s.setSample v).srOut = s.srOut := rfl
@[simp] theorem State.setSample_srIn (s : State) (v : Byte) : (s.setSample v).srIn = s.srIn := rfl
@[simp] theorem State.setSample_res (s : State) (v : Byte) : (s.setSample v).res = s.res := rfl
@[simp] theorem State.setSample_sample (s : State) (v : Byte) : (s.setSample v).sample = v := rfl
@[simp] theorem State.setSample_t0 (s : State) (v : Byte) : (s.setSample v).t0 = s.t0 := rfl
@[simp] theorem State.setSample_cmpIe (s : State) (v : Byte) : (s.setSample v).cmpIe = s.cmpIe := rfl
@[simp] theorem State.setSample_srDout (s : State) (v : Byte) : (s.setSample v).srDout = s.srDout := rfl
@[simp] theorem State.setSample_srClk (s : State) (v : Byte) : (s.setSample v).srClk = s.srClk := rfl
@[simp] theorem State.setSample_srLoad (s : State) (v : Byte) : (s.setSample v).srLoad = s.srLoad := rfl
@[simp] theorem State.setSample_srDinOe (s : State) (v : Byte) : (s.setSample v).srDinOe = s.srDinOe := rfl
@[simp] theorem State.setSample_btnCom (s : State) (v : Byte) : (s.setSample v).btnCom = s.btnCom := rfl
@[simp] theorem State.setSample_senseDrv (s : State) (v : Byte) : (s.setSample v).senseDrv = s.senseDrv := rfl
@[simp] theorem State.setSample_rdata (s : State) (v : Byte) : (s.setSample v).rdata = s.rdata := rfl
@[simp] theorem State.setSample_trace (s : State) (v : Byte) : (s.setSample v).trace = s.trace := rfl
@[simp] theorem State.setSample_build (s : State) (v : Byte) : (s.setSample v).build = s.build := rfl
@[simp] theorem State.setSample_env (s : State) (v : Byte) : (s.setSample v).env = s.env := rfl
@[simp] theorem State.setSample_inbox (s : State) (v : Byte) : (s.setSample v).inbox = s.inbox := rfl
@[simp] theorem State.setSample_drawIdx (s : State) (v : Byte) : (s.setSample v).drawIdx = s.drawIdx := rfl

/-! `setT0` -/

@[simp] theorem State.setT0_digit (s : State) (v : Byte) : (s.setT0 v).digit = s.digit := rfl
@[simp] theorem State.setT0_dim (s : State) (v : Byte) : (s.setT0 v).dim = s.dim := rfl
@[simp] theorem State.setT0_slot (s : State) (v : Byte) : (s.setT0 v).slot = s.slot := rfl
@[simp] theorem State.setT0_seg (s : State) (v : Byte) : (s.setT0 v).seg = s.seg := rfl
@[simp] theorem State.setT0_anode (s : State) (v : Byte) : (s.setT0 v).anode = s.anode := rfl
@[simp] theorem State.setT0_bs (s : State) (v : Byte) : (s.setT0 v).bs = s.bs := rfl
@[simp] theorem State.setT0_lcnt (s : State) (v : Byte) : (s.setT0 v).lcnt = s.lcnt := rfl
@[simp] theorem State.setT0_scnt (s : State) (v : Byte) : (s.setT0 v).scnt = s.scnt := rfl
@[simp] theorem State.setT0_srOut (s : State) (v : Byte) : (s.setT0 v).srOut = s.srOut := rfl
@[simp] theorem State.setT0_srIn (s : State) (v : Byte) : (s.setT0 v).srIn = s.srIn := rfl
@[simp] theorem State.setT0_res (s : State) (v : Byte) : (s.setT0 v).res = s.res := rfl
@[simp] theorem State.setT0_sample (s : State) (v : Byte) : (s.setT0 v).sample = s.sample := rfl
@[simp] theorem State.setT0_t0 (s : State) (v : Byte) : (s.setT0 v).t0 = v := rfl
@[simp] theorem State.setT0_cmpIe (s : State) (v : Byte) : (s.setT0 v).cmpIe = s.cmpIe := rfl
@[simp] theorem State.setT0_srDout (s : State) (v : Byte) : (s.setT0 v).srDout = s.srDout := rfl
@[simp] theorem State.setT0_srClk (s : State) (v : Byte) : (s.setT0 v).srClk = s.srClk := rfl
@[simp] theorem State.setT0_srLoad (s : State) (v : Byte) : (s.setT0 v).srLoad = s.srLoad := rfl
@[simp] theorem State.setT0_srDinOe (s : State) (v : Byte) : (s.setT0 v).srDinOe = s.srDinOe := rfl
@[simp] theorem State.setT0_btnCom (s : State) (v : Byte) : (s.setT0 v).btnCom = s.btnCom := rfl
@[simp] theorem State.setT0_senseDrv (s : State) (v : Byte) : (s.setT0 v).senseDrv = s.senseDrv := rfl
@[simp] theorem State.setT0_rdata (s : State) (v : Byte) : (s.setT0 v).rdata = s.rdata := rfl
@[simp] theorem State.setT0_trace (s : State) (v : Byte) : (s.setT0 v).trace = s.trace := rfl
@[simp] theorem State.setT0_build (s : State) (v : Byte) : (s.setT0 v).build = s.build := rfl
@[simp] theorem State.setT0_env (s : State) (v : Byte) : (s.setT0 v).env = s.env := rfl
@[simp] theorem State.setT0_inbox (s : State) (v : Byte) : (s.setT0 v).inbox = s.inbox := rfl
@[simp] theorem State.setT0_drawIdx (s : State) (v : Byte) : (s.setT0 v).drawIdx = s.drawIdx := rfl

/-! `setCmpIe` -/

@[simp] theorem State.setCmpIe_digit (s : State) (v : Bool) : (s.setCmpIe v).digit = s.digit := rfl
@[simp] theorem State.setCmpIe_dim (s : State) (v : Bool) : (s.setCmpIe v).dim = s.dim := rfl
@[simp] theorem State.setCmpIe_slot (s : State) (v : Bool) : (s.setCmpIe v).slot = s.slot := rfl
@[simp] theorem State.setCmpIe_seg (s : State) (v : Bool) : (s.setCmpIe v).seg = s.seg := rfl
@[simp] theorem State.setCmpIe_anode (s : State) (v : Bool) : (s.setCmpIe v).anode = s.anode := rfl
@[simp] theorem State.setCmpIe_bs (s : State) (v : Bool) : (s.setCmpIe v).bs = s.bs := rfl
@[simp] theorem State.setCmpIe_lcnt (s : State) (v : Bool) : (s.setCmpIe v).lcnt = s.lcnt := rfl
@[simp] theorem State.setCmpIe_scnt (s : State) (v : Bool) : (s.setCmpIe v).scnt = s.scnt := rfl
@[simp] theorem State.setCmpIe_srOut (s : State) (v : Bool) : (s.setCmpIe v).srOut = s.srOut := rfl
@[simp] theorem State.setCmpIe_srIn (s : State) (v : Bool) : (s.setCmpIe v).srIn = s.srIn := rfl
@[simp] theorem State.setCmpIe_res (s : State) (v : Bool) : (s.setCmpIe v).res = s.res := rfl
@[simp] theorem State.setCmpIe_sample (s : State) (v : Bool) : (s.setCmpIe v).sample = s.sample := rfl
@[simp] theorem State.setCmpIe_t0 (s : State) (v : Bool) : (s.setCmpIe v).t0 = s.t0 := rfl
@[simp] theorem State.setCmpIe_cmpIe (s : State) (v : Bool) : (s.setCmpIe v).cmpIe = v := rfl
@[simp] theorem State.setCmpIe_srDout (s : State) (v : Bool) : (s.setCmpIe v).srDout = s.srDout := rfl
@[simp] theorem State.setCmpIe_srClk (s : State) (v : Bool) : (s.setCmpIe v).srClk = s.srClk := rfl
@[simp] theorem State.setCmpIe_srLoad (s : State) (v : Bool) : (s.setCmpIe v).srLoad = s.srLoad := rfl
@[simp] theorem State.setCmpIe_srDinOe (s : State) (v : Bool) : (s.setCmpIe v).srDinOe = s.srDinOe := rfl
@[simp] theorem State.setCmpIe_btnCom (s : State) (v : Bool) : (s.setCmpIe v).btnCom = s.btnCom := rfl
@[simp] theorem State.setCmpIe_senseDrv (s : State) (v : Bool) : (s.setCmpIe v).senseDrv = s.senseDrv := rfl
@[simp] theorem State.setCmpIe_rdata (s : State) (v : Bool) : (s.setCmpIe v).rdata = s.rdata := rfl
@[simp] theorem State.setCmpIe_trace (s : State) (v : Bool) : (s.setCmpIe v).trace = s.trace := rfl
@[simp] theorem State.setCmpIe_build (s : State) (v : Bool) : (s.setCmpIe v).build = s.build := rfl
@[simp] theorem State.setCmpIe_env (s : State) (v : Bool) : (s.setCmpIe v).env = s.env := rfl
@[simp] theorem State.setCmpIe_inbox (s : State) (v : Bool) : (s.setCmpIe v).inbox = s.inbox := rfl
@[simp] theorem State.setCmpIe_drawIdx (s : State) (v : Bool) : (s.setCmpIe v).drawIdx = s.drawIdx := rfl

/-! `reply` -/

@[simp] theorem State.reply_digit (s : State) (v : Word) : (s.reply v).digit = s.digit := rfl
@[simp] theorem State.reply_dim (s : State) (v : Word) : (s.reply v).dim = s.dim := rfl
@[simp] theorem State.reply_slot (s : State) (v : Word) : (s.reply v).slot = s.slot := rfl
@[simp] theorem State.reply_seg (s : State) (v : Word) : (s.reply v).seg = s.seg := rfl
@[simp] theorem State.reply_anode (s : State) (v : Word) : (s.reply v).anode = s.anode := rfl
@[simp] theorem State.reply_bs (s : State) (v : Word) : (s.reply v).bs = s.bs := rfl
@[simp] theorem State.reply_lcnt (s : State) (v : Word) : (s.reply v).lcnt = s.lcnt := rfl
@[simp] theorem State.reply_scnt (s : State) (v : Word) : (s.reply v).scnt = s.scnt := rfl
@[simp] theorem State.reply_srOut (s : State) (v : Word) : (s.reply v).srOut = s.srOut := rfl
@[simp] theorem State.reply_srIn (s : State) (v : Word) : (s.reply v).srIn = s.srIn := rfl
@[simp] theorem State.reply_res (s : State) (v : Word) : (s.reply v).res = s.res := rfl
@[simp] theorem State.reply_sample (s : State) (v : Word) : (s.reply v).sample = s.sample := rfl
@[simp] theorem State.reply_t0 (s : State) (v : Word) : (s.reply v).t0 = s.t0 := rfl
@[simp] theorem State.reply_cmpIe (s : State) (v : Word) : (s.reply v).cmpIe = s.cmpIe := rfl
@[simp] theorem State.reply_srDout (s : State) (v : Word) : (s.reply v).srDout = s.srDout := rfl
@[simp] theorem State.reply_srClk (s : State) (v : Word) : (s.reply v).srClk = s.srClk := rfl
@[simp] theorem State.reply_srLoad (s : State) (v : Word) : (s.reply v).srLoad = s.srLoad := rfl
@[simp] theorem State.reply_srDinOe (s : State) (v : Word) : (s.reply v).srDinOe = s.srDinOe := rfl
@[simp] theorem State.reply_btnCom (s : State) (v : Word) : (s.reply v).btnCom = s.btnCom := rfl
@[simp] theorem State.reply_senseDrv (s : State) (v : Word) : (s.reply v).senseDrv = s.senseDrv := rfl
@[simp] theorem State.reply_rdata (s : State) (v : Word) : (s.reply v).rdata = v := rfl
@[simp] theorem State.reply_trace (s : State) (v : Word) : (s.reply v).trace = s.trace := rfl
@[simp] theorem State.reply_build (s : State) (v : Word) : (s.reply v).build = s.build := rfl
@[simp] theorem State.reply_env (s : State) (v : Word) : (s.reply v).env = s.env := rfl
@[simp] theorem State.reply_inbox (s : State) (v : Word) : (s.reply v).inbox = s.inbox := rfl
@[simp] theorem State.reply_drawIdx (s : State) (v : Word) : (s.reply v).drawIdx = s.drawIdx := rfl

/-! `setSeg` -/

@[simp] theorem State.setSeg_digit (s : State) (v : Byte) : (s.setSeg v).digit = s.digit := rfl
@[simp] theorem State.setSeg_dim (s : State) (v : Byte) : (s.setSeg v).dim = s.dim := rfl
@[simp] theorem State.setSeg_slot (s : State) (v : Byte) : (s.setSeg v).slot = s.slot := rfl
@[simp] theorem State.setSeg_seg (s : State) (v : Byte) : (s.setSeg v).seg = v := rfl
@[simp] theorem State.setSeg_anode (s : State) (v : Byte) : (s.setSeg v).anode = s.anode := rfl
@[simp] theorem State.setSeg_bs (s : State) (v : Byte) : (s.setSeg v).bs = s.bs := rfl
@[simp] theorem State.setSeg_lcnt (s : State) (v : Byte) : (s.setSeg v).lcnt = s.lcnt := rfl
@[simp] theorem State.setSeg_scnt (s : State) (v : Byte) : (s.setSeg v).scnt = s.scnt := rfl
@[simp] theorem State.setSeg_srOut (s : State) (v : Byte) : (s.setSeg v).srOut = s.srOut := rfl
@[simp] theorem State.setSeg_srIn (s : State) (v : Byte) : (s.setSeg v).srIn = s.srIn := rfl
@[simp] theorem State.setSeg_res (s : State) (v : Byte) : (s.setSeg v).res = s.res := rfl
@[simp] theorem State.setSeg_sample (s : State) (v : Byte) : (s.setSeg v).sample = s.sample := rfl
@[simp] theorem State.setSeg_t0 (s : State) (v : Byte) : (s.setSeg v).t0 = s.t0 := rfl
@[simp] theorem State.setSeg_cmpIe (s : State) (v : Byte) : (s.setSeg v).cmpIe = s.cmpIe := rfl
@[simp] theorem State.setSeg_srDout (s : State) (v : Byte) : (s.setSeg v).srDout = s.srDout := rfl
@[simp] theorem State.setSeg_srClk (s : State) (v : Byte) : (s.setSeg v).srClk = s.srClk := rfl
@[simp] theorem State.setSeg_srLoad (s : State) (v : Byte) : (s.setSeg v).srLoad = s.srLoad := rfl
@[simp] theorem State.setSeg_srDinOe (s : State) (v : Byte) : (s.setSeg v).srDinOe = s.srDinOe := rfl
@[simp] theorem State.setSeg_btnCom (s : State) (v : Byte) : (s.setSeg v).btnCom = s.btnCom := rfl
@[simp] theorem State.setSeg_senseDrv (s : State) (v : Byte) : (s.setSeg v).senseDrv = s.senseDrv := rfl
@[simp] theorem State.setSeg_rdata (s : State) (v : Byte) : (s.setSeg v).rdata = s.rdata := rfl
@[simp] theorem State.setSeg_trace (s : State) (v : Byte) : (s.setSeg v).trace = s.trace ++ [.outSeg v] := rfl
@[simp] theorem State.setSeg_build (s : State) (v : Byte) : (s.setSeg v).build = s.build := rfl
@[simp] theorem State.setSeg_env (s : State) (v : Byte) : (s.setSeg v).env = s.env := rfl
@[simp] theorem State.setSeg_inbox (s : State) (v : Byte) : (s.setSeg v).inbox = s.inbox := rfl
@[simp] theorem State.setSeg_drawIdx (s : State) (v : Byte) : (s.setSeg v).drawIdx = s.drawIdx := rfl

/-! `setAnode` -/

@[simp] theorem State.setAnode_digit (s : State) (v : BitVec 3) : (s.setAnode v).digit = s.digit := rfl
@[simp] theorem State.setAnode_dim (s : State) (v : BitVec 3) : (s.setAnode v).dim = s.dim := rfl
@[simp] theorem State.setAnode_slot (s : State) (v : BitVec 3) : (s.setAnode v).slot = s.slot := rfl
@[simp] theorem State.setAnode_seg (s : State) (v : BitVec 3) : (s.setAnode v).seg = s.seg := rfl
@[simp] theorem State.setAnode_anode (s : State) (v : BitVec 3) : (s.setAnode v).anode = v := rfl
@[simp] theorem State.setAnode_bs (s : State) (v : BitVec 3) : (s.setAnode v).bs = s.bs := rfl
@[simp] theorem State.setAnode_lcnt (s : State) (v : BitVec 3) : (s.setAnode v).lcnt = s.lcnt := rfl
@[simp] theorem State.setAnode_scnt (s : State) (v : BitVec 3) : (s.setAnode v).scnt = s.scnt := rfl
@[simp] theorem State.setAnode_srOut (s : State) (v : BitVec 3) : (s.setAnode v).srOut = s.srOut := rfl
@[simp] theorem State.setAnode_srIn (s : State) (v : BitVec 3) : (s.setAnode v).srIn = s.srIn := rfl
@[simp] theorem State.setAnode_res (s : State) (v : BitVec 3) : (s.setAnode v).res = s.res := rfl
@[simp] theorem State.setAnode_sample (s : State) (v : BitVec 3) : (s.setAnode v).sample = s.sample := rfl
@[simp] theorem State.setAnode_t0 (s : State) (v : BitVec 3) : (s.setAnode v).t0 = s.t0 := rfl
@[simp] theorem State.setAnode_cmpIe (s : State) (v : BitVec 3) : (s.setAnode v).cmpIe = s.cmpIe := rfl
@[simp] theorem State.setAnode_srDout (s : State) (v : BitVec 3) : (s.setAnode v).srDout = s.srDout := rfl
@[simp] theorem State.setAnode_srClk (s : State) (v : BitVec 3) : (s.setAnode v).srClk = s.srClk := rfl
@[simp] theorem State.setAnode_srLoad (s : State) (v : BitVec 3) : (s.setAnode v).srLoad = s.srLoad := rfl
@[simp] theorem State.setAnode_srDinOe (s : State) (v : BitVec 3) : (s.setAnode v).srDinOe = s.srDinOe := rfl
@[simp] theorem State.setAnode_btnCom (s : State) (v : BitVec 3) : (s.setAnode v).btnCom = s.btnCom := rfl
@[simp] theorem State.setAnode_senseDrv (s : State) (v : BitVec 3) : (s.setAnode v).senseDrv = s.senseDrv := rfl
@[simp] theorem State.setAnode_rdata (s : State) (v : BitVec 3) : (s.setAnode v).rdata = s.rdata := rfl
@[simp] theorem State.setAnode_trace (s : State) (v : BitVec 3) :
    (s.setAnode v).trace = s.trace ++ [.outAnode v] := rfl
@[simp] theorem State.setAnode_build (s : State) (v : BitVec 3) : (s.setAnode v).build = s.build := rfl
@[simp] theorem State.setAnode_env (s : State) (v : BitVec 3) : (s.setAnode v).env = s.env := rfl
@[simp] theorem State.setAnode_inbox (s : State) (v : BitVec 3) : (s.setAnode v).inbox = s.inbox := rfl
@[simp] theorem State.setAnode_drawIdx (s : State) (v : BitVec 3) : (s.setAnode v).drawIdx = s.drawIdx := rfl

/-! `emit` -/

@[simp] theorem State.emit_digit (s : State) (e : PinEvent) : (s.emit e).digit = s.digit := rfl
@[simp] theorem State.emit_dim (s : State) (e : PinEvent) : (s.emit e).dim = s.dim := rfl
@[simp] theorem State.emit_slot (s : State) (e : PinEvent) : (s.emit e).slot = s.slot := rfl
@[simp] theorem State.emit_seg (s : State) (e : PinEvent) : (s.emit e).seg = s.seg := rfl
@[simp] theorem State.emit_anode (s : State) (e : PinEvent) : (s.emit e).anode = s.anode := rfl
@[simp] theorem State.emit_bs (s : State) (e : PinEvent) : (s.emit e).bs = s.bs := rfl
@[simp] theorem State.emit_lcnt (s : State) (e : PinEvent) : (s.emit e).lcnt = s.lcnt := rfl
@[simp] theorem State.emit_scnt (s : State) (e : PinEvent) : (s.emit e).scnt = s.scnt := rfl
@[simp] theorem State.emit_srOut (s : State) (e : PinEvent) : (s.emit e).srOut = s.srOut := rfl
@[simp] theorem State.emit_srIn (s : State) (e : PinEvent) : (s.emit e).srIn = s.srIn := rfl
@[simp] theorem State.emit_res (s : State) (e : PinEvent) : (s.emit e).res = s.res := rfl
@[simp] theorem State.emit_sample (s : State) (e : PinEvent) : (s.emit e).sample = s.sample := rfl
@[simp] theorem State.emit_t0 (s : State) (e : PinEvent) : (s.emit e).t0 = s.t0 := rfl
@[simp] theorem State.emit_cmpIe (s : State) (e : PinEvent) : (s.emit e).cmpIe = s.cmpIe := rfl
@[simp] theorem State.emit_srDout (s : State) (e : PinEvent) : (s.emit e).srDout = s.srDout := rfl
@[simp] theorem State.emit_srClk (s : State) (e : PinEvent) : (s.emit e).srClk = s.srClk := rfl
@[simp] theorem State.emit_srLoad (s : State) (e : PinEvent) : (s.emit e).srLoad = s.srLoad := rfl
@[simp] theorem State.emit_srDinOe (s : State) (e : PinEvent) : (s.emit e).srDinOe = s.srDinOe := rfl
@[simp] theorem State.emit_btnCom (s : State) (e : PinEvent) : (s.emit e).btnCom = s.btnCom := rfl
@[simp] theorem State.emit_senseDrv (s : State) (e : PinEvent) : (s.emit e).senseDrv = s.senseDrv := rfl
@[simp] theorem State.emit_rdata (s : State) (e : PinEvent) : (s.emit e).rdata = s.rdata := rfl
@[simp] theorem State.emit_trace (s : State) (e : PinEvent) : (s.emit e).trace = s.trace ++ [e] := rfl
@[simp] theorem State.emit_build (s : State) (e : PinEvent) : (s.emit e).build = s.build := rfl
@[simp] theorem State.emit_env (s : State) (e : PinEvent) : (s.emit e).env = s.env := rfl
@[simp] theorem State.emit_inbox (s : State) (e : PinEvent) : (s.emit e).inbox = s.inbox := rfl
@[simp] theorem State.emit_drawIdx (s : State) (e : PinEvent) : (s.emit e).drawIdx = s.drawIdx := rfl

/-! `wait` -/

@[simp] theorem State.wait_digit (s : State) (t : WaitTime) : (s.wait t).digit = s.digit := rfl
@[simp] theorem State.wait_dim (s : State) (t : WaitTime) : (s.wait t).dim = s.dim := rfl
@[simp] theorem State.wait_slot (s : State) (t : WaitTime) : (s.wait t).slot = s.slot := rfl
@[simp] theorem State.wait_seg (s : State) (t : WaitTime) : (s.wait t).seg = s.seg := rfl
@[simp] theorem State.wait_anode (s : State) (t : WaitTime) : (s.wait t).anode = s.anode := rfl
@[simp] theorem State.wait_bs (s : State) (t : WaitTime) : (s.wait t).bs = s.bs := rfl
@[simp] theorem State.wait_lcnt (s : State) (t : WaitTime) : (s.wait t).lcnt = s.lcnt := rfl
@[simp] theorem State.wait_scnt (s : State) (t : WaitTime) : (s.wait t).scnt = s.scnt := rfl
@[simp] theorem State.wait_srOut (s : State) (t : WaitTime) : (s.wait t).srOut = s.srOut := rfl
@[simp] theorem State.wait_srIn (s : State) (t : WaitTime) : (s.wait t).srIn = s.srIn := rfl
@[simp] theorem State.wait_res (s : State) (t : WaitTime) : (s.wait t).res = s.res := rfl
@[simp] theorem State.wait_sample (s : State) (t : WaitTime) : (s.wait t).sample = s.sample := rfl
@[simp] theorem State.wait_t0 (s : State) (t : WaitTime) : (s.wait t).t0 = s.t0 := rfl
@[simp] theorem State.wait_cmpIe (s : State) (t : WaitTime) : (s.wait t).cmpIe = s.cmpIe := rfl
@[simp] theorem State.wait_srDout (s : State) (t : WaitTime) : (s.wait t).srDout = s.srDout := rfl
@[simp] theorem State.wait_srClk (s : State) (t : WaitTime) : (s.wait t).srClk = s.srClk := rfl
@[simp] theorem State.wait_srLoad (s : State) (t : WaitTime) : (s.wait t).srLoad = s.srLoad := rfl
@[simp] theorem State.wait_srDinOe (s : State) (t : WaitTime) : (s.wait t).srDinOe = s.srDinOe := rfl
@[simp] theorem State.wait_btnCom (s : State) (t : WaitTime) : (s.wait t).btnCom = s.btnCom := rfl
@[simp] theorem State.wait_senseDrv (s : State) (t : WaitTime) : (s.wait t).senseDrv = s.senseDrv := rfl
@[simp] theorem State.wait_rdata (s : State) (t : WaitTime) : (s.wait t).rdata = s.rdata := rfl
@[simp] theorem State.wait_trace (s : State) (t : WaitTime) : (s.wait t).trace = s.trace ++ [.wait t] := rfl
@[simp] theorem State.wait_build (s : State) (t : WaitTime) : (s.wait t).build = s.build := rfl
@[simp] theorem State.wait_env (s : State) (t : WaitTime) : (s.wait t).env = s.env := rfl
@[simp] theorem State.wait_inbox (s : State) (t : WaitTime) : (s.wait t).inbox = s.inbox := rfl
@[simp] theorem State.wait_drawIdx (s : State) (t : WaitTime) : (s.wait t).drawIdx = s.drawIdx := rfl

/-! `begin` -/

@[simp] theorem State.begin_digit (s : State) : (s.begin).digit = s.digit := rfl
@[simp] theorem State.begin_dim (s : State) : (s.begin).dim = s.dim := rfl
@[simp] theorem State.begin_slot (s : State) : (s.begin).slot = s.slot := rfl
@[simp] theorem State.begin_seg (s : State) : (s.begin).seg = s.seg := rfl
@[simp] theorem State.begin_anode (s : State) : (s.begin).anode = s.anode := rfl
@[simp] theorem State.begin_bs (s : State) : (s.begin).bs = s.bs := rfl
@[simp] theorem State.begin_lcnt (s : State) : (s.begin).lcnt = s.lcnt := rfl
@[simp] theorem State.begin_scnt (s : State) : (s.begin).scnt = s.scnt := rfl
@[simp] theorem State.begin_srOut (s : State) : (s.begin).srOut = s.srOut := rfl
@[simp] theorem State.begin_srIn (s : State) : (s.begin).srIn = s.srIn := rfl
@[simp] theorem State.begin_res (s : State) : (s.begin).res = s.res := rfl
@[simp] theorem State.begin_sample (s : State) : (s.begin).sample = s.sample := rfl
@[simp] theorem State.begin_t0 (s : State) : (s.begin).t0 = s.t0 := rfl
@[simp] theorem State.begin_cmpIe (s : State) : (s.begin).cmpIe = s.cmpIe := rfl
@[simp] theorem State.begin_srDout (s : State) : (s.begin).srDout = s.srDout := rfl
@[simp] theorem State.begin_srClk (s : State) : (s.begin).srClk = s.srClk := rfl
@[simp] theorem State.begin_srLoad (s : State) : (s.begin).srLoad = s.srLoad := rfl
@[simp] theorem State.begin_srDinOe (s : State) : (s.begin).srDinOe = s.srDinOe := rfl
@[simp] theorem State.begin_btnCom (s : State) : (s.begin).btnCom = s.btnCom := rfl
@[simp] theorem State.begin_senseDrv (s : State) : (s.begin).senseDrv = s.senseDrv := rfl
@[simp] theorem State.begin_rdata (s : State) : (s.begin).rdata = s.rdata := rfl
@[simp] theorem State.begin_trace (s : State) : (s.begin).trace = [] := rfl
@[simp] theorem State.begin_build (s : State) : (s.begin).build = s.build := rfl
@[simp] theorem State.begin_env (s : State) : (s.begin).env = s.env := rfl
@[simp] theorem State.begin_inbox (s : State) : (s.begin).inbox = s.inbox := rfl
@[simp] theorem State.begin_drawIdx (s : State) : (s.begin).drawIdx = s.drawIdx := rfl

/-! `out` -/

@[simp] theorem State.out_digit (s : State) (l : Line) (v : Bool) : (s.out l v).digit = s.digit := by cases l <;> rfl
@[simp] theorem State.out_dim (s : State) (l : Line) (v : Bool) : (s.out l v).dim = s.dim := by cases l <;> rfl
@[simp] theorem State.out_slot (s : State) (l : Line) (v : Bool) : (s.out l v).slot = s.slot := by cases l <;> rfl
@[simp] theorem State.out_seg (s : State) (l : Line) (v : Bool) : (s.out l v).seg = s.seg := by cases l <;> rfl
@[simp] theorem State.out_anode (s : State) (l : Line) (v : Bool) : (s.out l v).anode = s.anode := by cases l <;> rfl
@[simp] theorem State.out_bs (s : State) (l : Line) (v : Bool) : (s.out l v).bs = s.bs := by cases l <;> rfl
@[simp] theorem State.out_lcnt (s : State) (l : Line) (v : Bool) : (s.out l v).lcnt = s.lcnt := by cases l <;> rfl
@[simp] theorem State.out_scnt (s : State) (l : Line) (v : Bool) : (s.out l v).scnt = s.scnt := by cases l <;> rfl
@[simp] theorem State.out_srOut (s : State) (l : Line) (v : Bool) : (s.out l v).srOut = s.srOut := by cases l <;> rfl
@[simp] theorem State.out_srIn (s : State) (l : Line) (v : Bool) : (s.out l v).srIn = s.srIn := by cases l <;> rfl
@[simp] theorem State.out_res (s : State) (l : Line) (v : Bool) : (s.out l v).res = s.res := by cases l <;> rfl
@[simp] theorem State.out_sample (s : State) (l : Line) (v : Bool) :
    (s.out l v).sample = s.sample := by cases l <;> rfl
@[simp] theorem State.out_t0 (s : State) (l : Line) (v : Bool) : (s.out l v).t0 = s.t0 := by cases l <;> rfl
@[simp] theorem State.out_cmpIe (s : State) (l : Line) (v : Bool) : (s.out l v).cmpIe = s.cmpIe := by cases l <;> rfl
@[simp] theorem State.out_srDout (s : State) (l : Line) (v : Bool) :
    (s.out l v).srDout = if l = .srDout then v else s.srDout := by cases l <;> rfl
@[simp] theorem State.out_srClk (s : State) (l : Line) (v : Bool) :
    (s.out l v).srClk = if l = .srClk then v else s.srClk := by cases l <;> rfl
@[simp] theorem State.out_srLoad (s : State) (l : Line) (v : Bool) :
    (s.out l v).srLoad = if l = .srLoad then v else s.srLoad := by cases l <;> rfl
@[simp] theorem State.out_srDinOe (s : State) (l : Line) (v : Bool) :
    (s.out l v).srDinOe = if l = .srDinOe then v else s.srDinOe := by cases l <;> rfl
@[simp] theorem State.out_btnCom (s : State) (l : Line) (v : Bool) :
    (s.out l v).btnCom = if l = .btnCom then v else s.btnCom := by cases l <;> rfl
@[simp] theorem State.out_senseDrv (s : State) (l : Line) (v : Bool) :
    (s.out l v).senseDrv = if l = .senseDrv then v else s.senseDrv := by cases l <;> rfl
@[simp] theorem State.out_rdata (s : State) (l : Line) (v : Bool) : (s.out l v).rdata = s.rdata := by cases l <;> rfl
@[simp] theorem State.out_trace (s : State) (l : Line) (v : Bool) :
    (s.out l v).trace = s.trace ++ [.out l v] := by cases l <;> rfl
@[simp] theorem State.out_build (s : State) (l : Line) (v : Bool) : (s.out l v).build = s.build := by cases l <;> rfl
@[simp] theorem State.out_env (s : State) (l : Line) (v : Bool) : (s.out l v).env = s.env := by cases l <;> rfl
@[simp] theorem State.out_inbox (s : State) (l : Line) (v : Bool) : (s.out l v).inbox = s.inbox := by cases l <;> rfl
@[simp] theorem State.out_drawIdx (s : State) (l : Line) (v : Bool) :
    (s.out l v).drawIdx = s.drawIdx := by cases l <;> rfl

/-! `pulse` -/

@[simp] theorem State.pulse_digit (s : State) : s.pulse.digit = s.digit := rfl
@[simp] theorem State.pulse_dim (s : State) : s.pulse.dim = s.dim := rfl
@[simp] theorem State.pulse_slot (s : State) : s.pulse.slot = s.slot := rfl
@[simp] theorem State.pulse_seg (s : State) : s.pulse.seg = s.seg := rfl
@[simp] theorem State.pulse_anode (s : State) : s.pulse.anode = s.anode := rfl
@[simp] theorem State.pulse_bs (s : State) : s.pulse.bs = s.bs := rfl
@[simp] theorem State.pulse_lcnt (s : State) : s.pulse.lcnt = s.lcnt := rfl
@[simp] theorem State.pulse_scnt (s : State) : s.pulse.scnt = s.scnt := rfl
@[simp] theorem State.pulse_srOut (s : State) : s.pulse.srOut = s.srOut := rfl
@[simp] theorem State.pulse_srIn (s : State) : s.pulse.srIn = s.srIn := rfl
@[simp] theorem State.pulse_res (s : State) : s.pulse.res = s.res := rfl
@[simp] theorem State.pulse_sample (s : State) : s.pulse.sample = s.sample := rfl
@[simp] theorem State.pulse_t0 (s : State) : s.pulse.t0 = s.t0 := rfl
@[simp] theorem State.pulse_cmpIe (s : State) : s.pulse.cmpIe = s.cmpIe := rfl
@[simp] theorem State.pulse_srDout (s : State) : s.pulse.srDout = s.srDout := rfl
@[simp] theorem State.pulse_srClk (s : State) : s.pulse.srClk = false := rfl
@[simp] theorem State.pulse_srLoad (s : State) : s.pulse.srLoad = s.srLoad := rfl
@[simp] theorem State.pulse_srDinOe (s : State) : s.pulse.srDinOe = s.srDinOe := rfl
@[simp] theorem State.pulse_btnCom (s : State) : s.pulse.btnCom = s.btnCom := rfl
@[simp] theorem State.pulse_senseDrv (s : State) : s.pulse.senseDrv = s.senseDrv := rfl
@[simp] theorem State.pulse_rdata (s : State) : s.pulse.rdata = s.rdata := rfl
@[simp] theorem State.pulse_trace (s : State) :
    s.pulse.trace = s.trace ++ [.out .srClk true, .wait .clk, .out .srClk false] := by simp [State.pulse]
@[simp] theorem State.pulse_build (s : State) : s.pulse.build = s.build := rfl
@[simp] theorem State.pulse_env (s : State) : s.pulse.env = s.env := rfl
@[simp] theorem State.pulse_inbox (s : State) : s.pulse.inbox = s.inbox := rfl
@[simp] theorem State.pulse_drawIdx (s : State) : s.pulse.drawIdx = s.drawIdx := rfl

/-! `accept` -/

@[simp] theorem State.accept_digit (s : State) (d : Option Draws) (rest : List Input) :
    (s.accept d rest).digit = s.digit := by cases d <;> rfl
@[simp] theorem State.accept_dim (s : State) (d : Option Draws) (rest : List Input) :
    (s.accept d rest).dim = s.dim := by cases d <;> rfl
@[simp] theorem State.accept_slot (s : State) (d : Option Draws) (rest : List Input) :
    (s.accept d rest).slot = s.slot := by cases d <;> rfl
@[simp] theorem State.accept_seg (s : State) (d : Option Draws) (rest : List Input) :
    (s.accept d rest).seg = s.seg := by cases d <;> rfl
@[simp] theorem State.accept_anode (s : State) (d : Option Draws) (rest : List Input) :
    (s.accept d rest).anode = s.anode := by cases d <;> rfl
@[simp] theorem State.accept_bs (s : State) (d : Option Draws) (rest : List Input) :
    (s.accept d rest).bs = s.bs := by cases d <;> rfl
@[simp] theorem State.accept_lcnt (s : State) (d : Option Draws) (rest : List Input) :
    (s.accept d rest).lcnt = s.lcnt := by cases d <;> rfl
@[simp] theorem State.accept_scnt (s : State) (d : Option Draws) (rest : List Input) :
    (s.accept d rest).scnt = s.scnt := by cases d <;> rfl
@[simp] theorem State.accept_srOut (s : State) (d : Option Draws) (rest : List Input) :
    (s.accept d rest).srOut = s.srOut := by cases d <;> rfl
@[simp] theorem State.accept_srIn (s : State) (d : Option Draws) (rest : List Input) :
    (s.accept d rest).srIn = s.srIn := by cases d <;> rfl
@[simp] theorem State.accept_res (s : State) (d : Option Draws) (rest : List Input) :
    (s.accept d rest).res = s.res := by cases d <;> rfl
@[simp] theorem State.accept_sample (s : State) (d : Option Draws) (rest : List Input) :
    (s.accept d rest).sample = s.sample := by cases d <;> rfl
@[simp] theorem State.accept_t0 (s : State) (d : Option Draws) (rest : List Input) :
    (s.accept d rest).t0 = s.t0 := by cases d <;> rfl
@[simp] theorem State.accept_cmpIe (s : State) (d : Option Draws) (rest : List Input) :
    (s.accept d rest).cmpIe = s.cmpIe := by cases d <;> rfl
@[simp] theorem State.accept_srDout (s : State) (d : Option Draws) (rest : List Input) :
    (s.accept d rest).srDout = s.srDout := by cases d <;> rfl
@[simp] theorem State.accept_srClk (s : State) (d : Option Draws) (rest : List Input) :
    (s.accept d rest).srClk = s.srClk := by cases d <;> rfl
@[simp] theorem State.accept_srLoad (s : State) (d : Option Draws) (rest : List Input) :
    (s.accept d rest).srLoad = s.srLoad := by cases d <;> rfl
@[simp] theorem State.accept_srDinOe (s : State) (d : Option Draws) (rest : List Input) :
    (s.accept d rest).srDinOe = s.srDinOe := by cases d <;> rfl
@[simp] theorem State.accept_btnCom (s : State) (d : Option Draws) (rest : List Input) :
    (s.accept d rest).btnCom = s.btnCom := by cases d <;> rfl
@[simp] theorem State.accept_senseDrv (s : State) (d : Option Draws) (rest : List Input) :
    (s.accept d rest).senseDrv = s.senseDrv := by cases d <;> rfl
@[simp] theorem State.accept_rdata (s : State) (d : Option Draws) (rest : List Input) :
    (s.accept d rest).rdata = s.rdata := by cases d <;> rfl
@[simp] theorem State.accept_trace (s : State) (d : Option Draws) (rest : List Input) :
    (s.accept d rest).trace = s.trace := by cases d <;> rfl
@[simp] theorem State.accept_build (s : State) (d : Option Draws) (rest : List Input) :
    (s.accept d rest).build = s.build := by cases d <;> rfl
@[simp] theorem State.accept_env (s : State) (d : Option Draws) (rest : List Input) :
    (s.accept d rest).env = d.getD (Config.freeDraws s.drawIdx) := by cases d <;> rfl
@[simp] theorem State.accept_inbox (s : State) (d : Option Draws) (rest : List Input) :
    (s.accept d rest).inbox = rest := by cases d <;> rfl
@[simp] theorem State.accept_drawIdx (s : State) (d : Option Draws) (rest : List Input) :
    (s.accept d rest).drawIdx = s.drawIdx + (if d.isNone then 1 else 0) := by cases d <;> rfl

/-! The draws read from the state -/

@[simp] theorem State.envBtn_eq (s : State) : s.envBtn = s.env.btn := rfl
@[simp] theorem State.envTimer_eq (s : State) : s.envTimer = s.env.timer := rfl
@[simp] theorem State.envDin_eq (s : State) (k : Nat) : s.envDin k = s.env.din.getLsbD k := rfl

end Sys2Proof.Machine
end

