-- ==== Sys2Proof/Laws/Buttons.lean ====
section
/-! SUPPORT. What a debouncer run and the sample countdown do (40_buttons.md R90 to R97). -/

namespace Sys2Proof.Machine

/-- A debouncer run writes BS and LCNT and nothing else (R92 to R97). -/
theorem debounce_eq (r : BitVec 2) (s : State) :
    debounce r s = { s with bs := (debounce r s).bs, lcnt := (debounce r s).lcnt } := by
  unfold debounce release pressStart bothEvent held
  dsimp only
  split_ifs <;> rfl

/-- What a debouncer run writes depends on BS, LCNT and the long-press delay alone (R102). -/
theorem debounce_congr (r : BitVec 2) {s u : State} (hb : s.bs = u.bs) (hl : s.lcnt = u.lcnt)
    (hd : s.build.longSamples = u.build.longSamples) :
    (debounce r s).bs = (debounce r u).bs ∧ (debounce r s).lcnt = (debounce r u).lcnt := by
  unfold debounce release pressStart bothEvent held
  dsimp only [State.setBs, State.setLcnt]
  rw [hb, hl, hd]
  split_ifs <;> simp_all

/-! The cases of a debouncer run, one lemma each (R92 to R97), and what each makes of the state. -/

theorem debounce_idle {s : State} (hp : pressOf s.bs = false) : debounce 0 s = s := by
  unfold debounce
  rw [if_pos rfl, if_neg (by simp [hp])]

theorem debounce_release {s : State} (hp : pressOf s.bs = true) : debounce 0 s = release s := by
  unfold debounce
  rw [if_pos rfl, if_pos hp]

theorem debounce_start {r : BitVec 2} {s : State} (hr : r ≠ 0) (hp : pressOf s.bs = false) :
    debounce r s = pressStart r s := by
  unfold debounce
  rw [if_neg hr, if_pos hp]

theorem debounce_both {s : State} (hp : pressOf s.bs = true) (hb : btnOf s.bs ≠ 0b11) (hl : longOf s.bs = false) :
    debounce 0b11 s = bothEvent s := by
  unfold debounce
  rw [if_neg (by decide), if_neg (by simp [hp]), if_pos ⟨rfl, hb, hl⟩]

theorem debounce_held {r : BitVec 2} {s : State} (hr : r ≠ 0) (hp : pressOf s.bs = true) (he : r = btnOf s.bs) :
    debounce r s = held s := by
  unfold debounce
  rw [if_neg hr, if_neg (by simp [hp]), if_neg (fun h => h.2.1 (he.symm.trans h.1)), if_pos he]

theorem debounce_other {r : BitVec 2} {s : State} (hr : r ≠ 0) (hp : pressOf s.bs = true)
    (hb : ¬(r = 0b11 ∧ btnOf s.bs ≠ 0b11 ∧ longOf s.bs = false)) (he : r ≠ btnOf s.bs) : debounce r s = s := by
  unfold debounce
  rw [if_neg hr, if_neg (by simp [hp]), if_neg hb, if_neg he]

theorem release_long {s : State} (hl : longOf s.bs = true) (ha : ackOf s.bs = true) :
    release s = s.setBs (withAck (withPress s.bs false) false) := by
  unfold release
  rw [if_pos (by simp [hl, ha])]

theorem release_short {s : State} (h : ¬(longOf s.bs = true ∧ ackOf s.bs = true)) :
    release s = s.setBs (withAck (withLong (withPress s.bs false) false) false) := by
  unfold release
  rw [if_neg (by simpa using h)]

theorem held_long {s : State} (hl : longOf s.bs = true) : held s = s := by
  unfold held
  rw [if_pos hl]

theorem held_last {s : State} (hl : longOf s.bs = false) (h : s.lcnt - 1 = 0) :
    held s = (s.setLcnt 0).setBs (withAck (withLong s.bs true) false) := by
  unfold held
  rw [if_neg (by simp [hl]), h]
  rfl

theorem held_counts {s : State} (hl : longOf s.bs = false) (h : s.lcnt - 1 ≠ 0) :
    held s = s.setLcnt (s.lcnt - 1) := by
  unfold held
  rw [if_neg (by simp [hl])]
  exact if_neg h

theorem sub_one_eq_zero_iff (x : Byte) : x - 1 = 0 ↔ x = 1 := by
  constructor <;> intro h <;> bv_omega

/-- The countdown (R90): a tick that ends the interval reloads SCNT and runs the debouncer with the levels drawn, with
the line protocol of R91; any other tick only counts. -/
theorem sampleCountdown_eq (s : State) :
    sampleCountdown s =
      if s.scnt = 1 then { s with
        scnt := s.build.sampleTicks
        bs := (debounce s.env.btn s).bs
        lcnt := (debounce s.env.btn s).lcnt
        btnCom := false
        trace := s.trace ++ [.out .btnCom true, .wait .settle, .out .btnCom false] }
      else { s with scnt := s.scnt - 1 } := by
  unfold sampleCountdown
  dsimp only [State.setScnt]
  simp only [sub_one_eq_zero_iff]
  split
  · rw [debounce_eq]
    have h := debounce_congr s.env.btn
      (s := btnRead { s with scnt := s.build.sampleTicks }) (u := s) rfl rfl rfl
    simp only [State.envBtn]
    rw [h.1, h.2]
    simp [btnRead, State.out, State.wait, State.emit]
  · rfl

end Sys2Proof.Machine
end

