-- ==== Sys2Proof/Laws/Decode.lean ====
section
/-! SUPPORT. The fields of an assembled command word (30_encoding.md R71). -/

namespace Sys2Proof

/-- Bit `n` of `{OP, A, B}`. -/
theorem assembled_getLsbD (o a : BitVec 4) (b : Byte) (n : Nat) :
    BitVec.getLsbD (w := 4 + 4 + 8) (o ++ a ++ b) n =
      if n < 8 then b.getLsbD n else if n - 8 < 4 then a.getLsbD (n - 8) else o.getLsbD (n - 8 - 4) := by
  simp only [BitVec.getLsbD_append]

theorem fieldOp_append (o a : BitVec 4) (b : Byte) : fieldOp (o ++ a ++ b) = o := by
  apply BitVec.eq_of_getLsbD_eq
  intro i hi
  rw [fieldOp, BitVec.getLsbD_extractLsb']
  refine (congrArg _ (assembled_getLsbD o a b (12 + i))).trans ?_
  interval_cases i <;> simp

theorem fieldA_append (o a : BitVec 4) (b : Byte) : fieldA (o ++ a ++ b) = a := by
  apply BitVec.eq_of_getLsbD_eq
  intro i hi
  rw [fieldA, BitVec.getLsbD_extractLsb']
  refine (congrArg _ (assembled_getLsbD o a b (8 + i))).trans ?_
  interval_cases i <;> simp

theorem fieldB_append (o a : BitVec 4) (b : Byte) : fieldB (o ++ a ++ b) = b := by
  apply BitVec.eq_of_getLsbD_eq
  intro i hi
  rw [fieldB, BitVec.getLsbD_extractLsb']
  refine (congrArg _ (assembled_getLsbD o a b (0 + i))).trans ?_
  interval_cases i <;> simp

/-- A command word is its three fields (R71). -/
theorem fields_append (c : CmdWord) : fieldOp c ++ fieldA c ++ fieldB c = c := by
  apply BitVec.eq_of_getLsbD_eq
  intro i hi
  refine (assembled_getLsbD _ _ _ i).trans ?_
  interval_cases i <;> simp [fieldOp, fieldA, fieldB]

/-- The number a command word is (R71). -/
theorem assembled_toNat (o a : BitVec 4) (b : Byte) :
    BitVec.toNat (w := 16) (o ++ a ++ b) = o.toNat * 4096 + a.toNat * 256 + b.toNat := by
  have h : BitVec.toNat (w := 4 + 4 + 8) (o ++ a ++ b) = ((o.toNat <<< 4 ||| a.toNat) <<< 8 ||| b.toNat) := by
    rw [BitVec.toNat_append, BitVec.toNat_append]
  refine h.trans ?_
  rw [← Nat.shiftLeft_add_eq_or_of_lt a.isLt, ← Nat.shiftLeft_add_eq_or_of_lt b.isLt, Nat.shiftLeft_eq,
    Nat.shiftLeft_eq]
  omega

end Sys2Proof
end

