-- ==== Sys2Proof/Laws/Exchange.lean ====
section
/-! SUPPORT. What the shift-register exchange does (41_shiftreg.md R110 to R114). -/

namespace Sys2Proof.Machine

/-- The running word after the samples 0 to `n-1` of the input line (R114). -/
def sampledWord (din : Word) : Nat → Word
  | 0 => 0
  | n + 1 => (sampledWord din n <<< 1) ||| (BitVec.ofBool (din.getLsbD n)).zeroExtend 32

/-- The first bit sampled ends as bit `n-1`, and no bit from `n` on is set (R114). -/
theorem sampledWord_getLsbD (din : Word) {n : Nat} (hn : n ≤ 32) (k : Nat) :
    (sampledWord din n).getLsbD k = (decide (k < n) && din.getLsbD (n - 1 - k)) := by
  induction n generalizing k with
  | zero => simp [sampledWord]
  | succ n ih =>
    cases k with
    | zero => simp [sampledWord]
    | succ k =>
      have h := ih (by omega) k
      have hk : n - (k + 1) = n - 1 - k := by omega
      by_cases h32 : k + 1 < 32
      · rw [BitVec.getLsbD_eq_getElem (by omega)] at h
        simp [sampledWord, h, h32, hk]
      · have : ¬ k < n := by omega
        simp [sampledWord, h, this]

theorem pulsesEvents_append (n : Nat) : pulsesEvents n ++ pulseEvents = pulsesEvents (n + 1) := by
  induction n with
  | zero => simp [pulsesEvents]
  | succ n ih => rw [pulsesEvents, List.append_assoc, ih]; rfl

/-- The output phase drives the bits of SR_OUT, most significant first, and leaves the clock low (R111). -/
theorem outputBits_eq (n : Nat) (s : State) :
    outputBits n s = { s with
      srDout := if n = 0 then s.srDout else s.srOut.getLsbD 0
      srClk := if n = 0 then s.srClk else false
      trace := s.trace ++ outputEvents s.srOut n } := by
  induction n generalizing s with
  | zero => simp [outputBits, outputEvents]
  | succ n ih =>
    rw [outputBits, ih]
    rcases n with _ | n <;>
      simp [State.pulse, State.wait, State.emit, State.out, outputEvents, pulseEvents]

/-- The input phase's clock pulses and samples (R114). -/
theorem inputBits_eq (n : Nat) (s : State) :
    inputBits n s = ({ s with
      srClk := if n = 0 then s.srClk else false
      trace := s.trace ++ pulsesEvents n }, sampledWord s.env.din n) := by
  induction n with
  | zero => simp [inputBits, pulsesEvents, sampledWord]
  | succ n ih =>
    simp [inputBits, ih, State.pulse, State.wait, State.emit, State.out, State.envDin, sampledWord,
      ← pulsesEvents_append n, pulseEvents]

/-- The whole exchange (R110): nothing with both widths 0; else the lines end at their idle levels (R115) and, where
there are inputs, SR_IN holds the sampled word. -/
theorem exchange_eq (s : State) :
    exchange s =
      if s.build.srOutW.val = 0 ∧ s.build.srInW.val = 0 then s
      else { s with
        srDout := true
        srClk := if s.build.srOutW.val = 0 ∧ s.build.srInW.val = 0 then s.srClk else false
        srLoad := true
        srDinOe := if s.build.srInW.val = 0 then s.srDinOe else true
        srIn := if s.build.srInW.val = 0 then s.srIn else sampledWord s.env.din s.build.srInW.val
        trace := s.trace ++ exchangeEvents s.build s.srOut } := by
  unfold exchange
  split
  · rfl
  next h =>
    by_cases hi : s.build.srInW.val = 0
    · have ho : s.build.srOutW.val ≠ 0 := fun h' => h ⟨h', hi⟩
      simp [loadStrobe, doutPark, outputPhase, outputBits_eq, State.out, exchangeEvents, hi, ho]
    · simp [loadStrobe, doutPark, outputPhase, outputBits_eq, inputPhase, inputBits_eq, State.out, State.setSrIn,
        exchangeEvents, hi, Nat.pos_of_ne_zero hi]

end Sys2Proof.Machine
end

