-- ==== Sys2Proof/Laws/Tick.lean ====
section
/-! SUPPORT. What a tick does (43_display.md R150): every field of the state after each of its steps, then after the
whole tick. -/

namespace Sys2Proof.Machine

/-- Step 4 (R153, 42_analog.md R131, R132): the slot, and the sampler where it is built in. -/
theorem reseed_eq (s : State) :
    reseed s = { s with
      slot := if s.slot = 0 then cycleSeed s.dim else s.slot
      t0 := if s.build.analogEn = true ∧ s.slot = 0 then s.env.timer else s.t0
      cmpIe := if s.build.analogEn = true ∧ s.slot = 0 then true else s.cmpIe
      senseDrv := if s.build.analogEn = true then decide (s.slot ≠ 0) else s.senseDrv
      trace := s.trace ++ if s.build.analogEn = true then [.out .senseDrv (decide (s.slot ≠ 0))] else [] } := by
  unfold reseed
  by_cases h0 : s.slot = 0#8 <;> by_cases ha : s.build.analogEn = true <;>
    simp [h0, ha, arm, discharge, State.setSlot, State.setT0, State.setCmpIe, State.out, State.envTimer]

/-- Step 6 (R155): the digit SLOT lit, or dark with SEG kept. -/
theorem lightDigit_eq (s : State) :
    lightDigit s =
      if h : s.slot.toNat < digitCount then { s with
        seg := s.digit[s.slot.toNat]
        anode := 1#3 <<< s.slot.toNat
        trace := s.trace ++ [.outSeg s.digit[s.slot.toNat], .outAnode (1#3 <<< s.slot.toNat)] }
      else s := by
  unfold lightDigit
  split
  · simp [State.setSeg, State.setAnode]
  · rfl

/-- SLOT after the tick (R153, R154). -/
def nextSlot (s : State) : Byte := (if s.slot = 0 then cycleSeed s.dim else s.slot) - 1

/-- The events of a sampling tick on the button common line (40_buttons.md R91). -/
def countdownEvents (s : State) : List PinEvent :=
  if s.scnt = 1 then [.out .btnCom true, .wait .settle, .out .btnCom false] else []

/-- The event of step 4 on the sense pin (42_analog.md R131, R132). -/
def senseEvents (s : State) : List PinEvent :=
  if s.build.analogEn = true then [.out .senseDrv (decide (s.slot ≠ 0))] else []

/-- The events of step 6 (R155). -/
def lightEvents (s : State) : List PinEvent :=
  if h : (nextSlot s).toNat < digitCount then
    [.outSeg s.digit[(nextSlot s).toNat], .outAnode (1#3 <<< (nextSlot s).toNat)]
  else []

/-! Step 1 (R152). -/

@[simp] theorem blankDigits_digit (s : State) : (blankDigits s).digit = s.digit := rfl
@[simp] theorem blankDigits_dim (s : State) : (blankDigits s).dim = s.dim := rfl
@[simp] theorem blankDigits_slot (s : State) : (blankDigits s).slot = s.slot := rfl
@[simp] theorem blankDigits_seg (s : State) : (blankDigits s).seg = s.seg := rfl
@[simp] theorem blankDigits_anode (s : State) : (blankDigits s).anode = 0 := rfl
@[simp] theorem blankDigits_bs (s : State) : (blankDigits s).bs = s.bs := rfl
@[simp] theorem blankDigits_lcnt (s : State) : (blankDigits s).lcnt = s.lcnt := rfl
@[simp] theorem blankDigits_scnt (s : State) : (blankDigits s).scnt = s.scnt := rfl
@[simp] theorem blankDigits_srOut (s : State) : (blankDigits s).srOut = s.srOut := rfl
@[simp] theorem blankDigits_srIn (s : State) : (blankDigits s).srIn = s.srIn := rfl
@[simp] theorem blankDigits_res (s : State) : (blankDigits s).res = s.res := rfl
@[simp] theorem blankDigits_sample (s : State) : (blankDigits s).sample = s.sample := rfl
@[simp] theorem blankDigits_t0 (s : State) : (blankDigits s).t0 = s.t0 := rfl
@[simp] theorem blankDigits_cmpIe (s : State) : (blankDigits s).cmpIe = s.cmpIe := rfl
@[simp] theorem blankDigits_srDout (s : State) : (blankDigits s).srDout = s.srDout := rfl
@[simp] theorem blankDigits_srClk (s : State) : (blankDigits s).srClk = s.srClk := rfl
@[simp] theorem blankDigits_srLoad (s : State) : (blankDigits s).srLoad = s.srLoad := rfl
@[simp] theorem blankDigits_srDinOe (s : State) : (blankDigits s).srDinOe = s.srDinOe := rfl
@[simp] theorem blankDigits_btnCom (s : State) : (blankDigits s).btnCom = s.btnCom := rfl
@[simp] theorem blankDigits_senseDrv (s : State) : (blankDigits s).senseDrv = s.senseDrv := rfl
@[simp] theorem blankDigits_rdata (s : State) : (blankDigits s).rdata = s.rdata := rfl
@[simp] theorem blankDigits_trace (s : State) : (blankDigits s).trace = s.trace ++ [.outAnode 0] := rfl
@[simp] theorem blankDigits_build (s : State) : (blankDigits s).build = s.build := rfl
@[simp] theorem blankDigits_env (s : State) : (blankDigits s).env = s.env := rfl
@[simp] theorem blankDigits_inbox (s : State) : (blankDigits s).inbox = s.inbox := rfl
@[simp] theorem blankDigits_drawIdx (s : State) : (blankDigits s).drawIdx = s.drawIdx := rfl

/-! Step 2, the exchange (41_shiftreg.md R110 to R115). -/

@[simp] theorem exchange_digit (s : State) : (exchange s).digit = s.digit := by rw [exchange_eq]; split <;> rfl
@[simp] theorem exchange_dim (s : State) : (exchange s).dim = s.dim := by rw [exchange_eq]; split <;> rfl
@[simp] theorem exchange_slot (s : State) : (exchange s).slot = s.slot := by rw [exchange_eq]; split <;> rfl
@[simp] theorem exchange_seg (s : State) : (exchange s).seg = s.seg := by rw [exchange_eq]; split <;> rfl
@[simp] theorem exchange_anode (s : State) : (exchange s).anode = s.anode := by rw [exchange_eq]; split <;> rfl
@[simp] theorem exchange_bs (s : State) : (exchange s).bs = s.bs := by rw [exchange_eq]; split <;> rfl
@[simp] theorem exchange_lcnt (s : State) : (exchange s).lcnt = s.lcnt := by rw [exchange_eq]; split <;> rfl
@[simp] theorem exchange_scnt (s : State) : (exchange s).scnt = s.scnt := by rw [exchange_eq]; split <;> rfl
@[simp] theorem exchange_srOut (s : State) : (exchange s).srOut = s.srOut := by rw [exchange_eq]; split <;> rfl
@[simp] theorem exchange_srIn (s : State) :
    (exchange s).srIn =
      if s.build.srInW.val = 0 then s.srIn else sampledWord s.env.din s.build.srInW.val := by
  rw [exchange_eq]; split <;> simp_all
@[simp] theorem exchange_res (s : State) : (exchange s).res = s.res := by rw [exchange_eq]; split <;> rfl
@[simp] theorem exchange_sample (s : State) : (exchange s).sample = s.sample := by rw [exchange_eq]; split <;> rfl
@[simp] theorem exchange_t0 (s : State) : (exchange s).t0 = s.t0 := by rw [exchange_eq]; split <;> rfl
@[simp] theorem exchange_cmpIe (s : State) : (exchange s).cmpIe = s.cmpIe := by rw [exchange_eq]; split <;> rfl
@[simp] theorem exchange_srDout (s : State) :
    (exchange s).srDout =
      if s.build.srOutW.val = 0 ∧ s.build.srInW.val = 0 then s.srDout else true := by
  rw [exchange_eq]; split <;> rfl
@[simp] theorem exchange_srClk (s : State) :
    (exchange s).srClk =
      if s.build.srOutW.val = 0 ∧ s.build.srInW.val = 0 then s.srClk else false := by
  rw [exchange_eq]; split <;> simp_all
@[simp] theorem exchange_srLoad (s : State) :
    (exchange s).srLoad =
      if s.build.srOutW.val = 0 ∧ s.build.srInW.val = 0 then s.srLoad else true := by
  rw [exchange_eq]; split <;> rfl
@[simp] theorem exchange_srDinOe (s : State) :
    (exchange s).srDinOe =
      if s.build.srInW.val = 0 then s.srDinOe else true := by
  rw [exchange_eq]; split <;> simp_all
@[simp] theorem exchange_btnCom (s : State) : (exchange s).btnCom = s.btnCom := by rw [exchange_eq]; split <;> rfl
@[simp] theorem exchange_senseDrv (s : State) :
    (exchange s).senseDrv =
      s.senseDrv := by
  rw [exchange_eq]; split <;> rfl
@[simp] theorem exchange_rdata (s : State) : (exchange s).rdata = s.rdata := by rw [exchange_eq]; split <;> rfl
@[simp] theorem exchange_trace (s : State) :
    (exchange s).trace =
      s.trace ++ exchangeEvents s.build s.srOut := by
  rw [exchange_eq]; split <;> simp_all [exchangeEvents]
@[simp] theorem exchange_build (s : State) : (exchange s).build = s.build := by rw [exchange_eq]; split <;> rfl
@[simp] theorem exchange_env (s : State) : (exchange s).env = s.env := by rw [exchange_eq]; split <;> rfl
@[simp] theorem exchange_inbox (s : State) : (exchange s).inbox = s.inbox := by rw [exchange_eq]; split <;> rfl
@[simp] theorem exchange_drawIdx (s : State) : (exchange s).drawIdx = s.drawIdx := by rw [exchange_eq]; split <;> rfl

/-! A debouncer run (40_buttons.md R92): every field but BS and LCNT is as it was. -/

@[simp] theorem debounce_digit (r : BitVec 2) (s : State) : (debounce r s).digit = s.digit := by rw [debounce_eq]
@[simp] theorem debounce_dim (r : BitVec 2) (s : State) : (debounce r s).dim = s.dim := by rw [debounce_eq]
@[simp] theorem debounce_slot (r : BitVec 2) (s : State) : (debounce r s).slot = s.slot := by rw [debounce_eq]
@[simp] theorem debounce_seg (r : BitVec 2) (s : State) : (debounce r s).seg = s.seg := by rw [debounce_eq]
@[simp] theorem debounce_anode (r : BitVec 2) (s : State) : (debounce r s).anode = s.anode := by rw [debounce_eq]
@[simp] theorem debounce_scnt (r : BitVec 2) (s : State) : (debounce r s).scnt = s.scnt := by rw [debounce_eq]
@[simp] theorem debounce_srOut (r : BitVec 2) (s : State) : (debounce r s).srOut = s.srOut := by rw [debounce_eq]
@[simp] theorem debounce_srIn (r : BitVec 2) (s : State) : (debounce r s).srIn = s.srIn := by rw [debounce_eq]
@[simp] theorem debounce_res (r : BitVec 2) (s : State) : (debounce r s).res = s.res := by rw [debounce_eq]
@[simp] theorem debounce_sample (r : BitVec 2) (s : State) : (debounce r s).sample = s.sample := by rw [debounce_eq]
@[simp] theorem debounce_t0 (r : BitVec 2) (s : State) : (debounce r s).t0 = s.t0 := by rw [debounce_eq]
@[simp] theorem debounce_cmpIe (r : BitVec 2) (s : State) : (debounce r s).cmpIe = s.cmpIe := by rw [debounce_eq]
@[simp] theorem debounce_srDout (r : BitVec 2) (s : State) : (debounce r s).srDout = s.srDout := by rw [debounce_eq]
@[simp] theorem debounce_srClk (r : BitVec 2) (s : State) : (debounce r s).srClk = s.srClk := by rw [debounce_eq]
@[simp] theorem debounce_srLoad (r : BitVec 2) (s : State) : (debounce r s).srLoad = s.srLoad := by rw [debounce_eq]
@[simp] theorem debounce_srDinOe (r : BitVec 2) (s : State) :
    (debounce r s).srDinOe =
      s.srDinOe := by
  rw [debounce_eq]
@[simp] theorem debounce_btnCom (r : BitVec 2) (s : State) : (debounce r s).btnCom = s.btnCom := by rw [debounce_eq]
@[simp] theorem debounce_senseDrv (r : BitVec 2) (s : State) :
    (debounce r s).senseDrv =
      s.senseDrv := by
  rw [debounce_eq]
@[simp] theorem debounce_rdata (r : BitVec 2) (s : State) : (debounce r s).rdata = s.rdata := by rw [debounce_eq]
@[simp] theorem debounce_trace (r : BitVec 2) (s : State) : (debounce r s).trace = s.trace := by rw [debounce_eq]
@[simp] theorem debounce_build (r : BitVec 2) (s : State) : (debounce r s).build = s.build := by rw [debounce_eq]
@[simp] theorem debounce_env (r : BitVec 2) (s : State) : (debounce r s).env = s.env := by rw [debounce_eq]
@[simp] theorem debounce_inbox (r : BitVec 2) (s : State) : (debounce r s).inbox = s.inbox := by rw [debounce_eq]
@[simp] theorem debounce_drawIdx (r : BitVec 2) (s : State) :
    (debounce r s).drawIdx =
      s.drawIdx := by
  rw [debounce_eq]

/-! Step 3, the countdown (40_buttons.md R90, R91). -/

@[simp] theorem sampleCountdown_digit (s : State) :
    (sampleCountdown s).digit =
      s.digit := by
  rw [sampleCountdown_eq]; split <;> rfl
@[simp] theorem sampleCountdown_dim (s : State) :
    (sampleCountdown s).dim =
      s.dim := by
  rw [sampleCountdown_eq]; split <;> rfl
@[simp] theorem sampleCountdown_slot (s : State) :
    (sampleCountdown s).slot =
      s.slot := by
  rw [sampleCountdown_eq]; split <;> rfl
@[simp] theorem sampleCountdown_seg (s : State) :
    (sampleCountdown s).seg =
      s.seg := by
  rw [sampleCountdown_eq]; split <;> rfl
@[simp] theorem sampleCountdown_anode (s : State) :
    (sampleCountdown s).anode =
      s.anode := by
  rw [sampleCountdown_eq]; split <;> rfl
@[simp] theorem sampleCountdown_bs (s : State) :
    (sampleCountdown s).bs =
      if s.scnt = 1 then (debounce s.env.btn s).bs else s.bs := by
  rw [sampleCountdown_eq]; split <;> rfl
@[simp] theorem sampleCountdown_lcnt (s : State) :
    (sampleCountdown s).lcnt =
      if s.scnt = 1 then (debounce s.env.btn s).lcnt else s.lcnt := by
  rw [sampleCountdown_eq]; split <;> rfl
@[simp] theorem sampleCountdown_scnt (s : State) :
    (sampleCountdown s).scnt =
      if s.scnt = 1 then s.build.sampleTicks else s.scnt - 1 := by
  rw [sampleCountdown_eq]; split <;> rfl
@[simp] theorem sampleCountdown_srOut (s : State) :
    (sampleCountdown s).srOut =
      s.srOut := by
  rw [sampleCountdown_eq]; split <;> rfl
@[simp] theorem sampleCountdown_srIn (s : State) :
    (sampleCountdown s).srIn =
      s.srIn := by
  rw [sampleCountdown_eq]; split <;> rfl
@[simp] theorem sampleCountdown_res (s : State) :
    (sampleCountdown s).res =
      s.res := by
  rw [sampleCountdown_eq]; split <;> rfl
@[simp] theorem sampleCountdown_sample (s : State) :
    (sampleCountdown s).sample =
      s.sample := by
  rw [sampleCountdown_eq]; split <;> rfl
@[simp] theorem sampleCountdown_t0 (s : State) :
    (sampleCountdown s).t0 =
      s.t0 := by
  rw [sampleCountdown_eq]; split <;> rfl
@[simp] theorem sampleCountdown_cmpIe (s : State) :
    (sampleCountdown s).cmpIe =
      s.cmpIe := by
  rw [sampleCountdown_eq]; split <;> rfl
@[simp] theorem sampleCountdown_srDout (s : State) :
    (sampleCountdown s).srDout =
      s.srDout := by
  rw [sampleCountdown_eq]; split <;> rfl
@[simp] theorem sampleCountdown_srClk (s : State) :
    (sampleCountdown s).srClk =
      s.srClk := by
  rw [sampleCountdown_eq]; split <;> rfl
@[simp] theorem sampleCountdown_srLoad (s : State) :
    (sampleCountdown s).srLoad =
      s.srLoad := by
  rw [sampleCountdown_eq]; split <;> rfl
@[simp] theorem sampleCountdown_srDinOe (s : State) :
    (sampleCountdown s).srDinOe =
      s.srDinOe := by
  rw [sampleCountdown_eq]; split <;> rfl
@[simp] theorem sampleCountdown_btnCom (s : State) :
    (sampleCountdown s).btnCom =
      if s.scnt = 1 then false else s.btnCom := by
  rw [sampleCountdown_eq]; split <;> rfl
@[simp] theorem sampleCountdown_senseDrv (s : State) :
    (sampleCountdown s).senseDrv =
      s.senseDrv := by
  rw [sampleCountdown_eq]; split <;> rfl
@[simp] theorem sampleCountdown_rdata (s : State) :
    (sampleCountdown s).rdata =
      s.rdata := by
  rw [sampleCountdown_eq]; split <;> rfl
@[simp] theorem sampleCountdown_trace (s : State) :
    (sampleCountdown s).trace =
      s.trace ++ countdownEvents s := by
  rw [sampleCountdown_eq, countdownEvents]; split <;> simp_all
@[simp] theorem sampleCountdown_build (s : State) :
    (sampleCountdown s).build =
      s.build := by
  rw [sampleCountdown_eq]; split <;> rfl
@[simp] theorem sampleCountdown_env (s : State) :
    (sampleCountdown s).env =
      s.env := by
  rw [sampleCountdown_eq]; split <;> rfl
@[simp] theorem sampleCountdown_inbox (s : State) :
    (sampleCountdown s).inbox =
      s.inbox := by
  rw [sampleCountdown_eq]; split <;> rfl
@[simp] theorem sampleCountdown_drawIdx (s : State) :
    (sampleCountdown s).drawIdx =
      s.drawIdx := by
  rw [sampleCountdown_eq]; split <;> rfl

/-! Step 4 (R153, 42_analog.md R130 to R133). -/

@[simp] theorem reseed_digit (s : State) : (reseed s).digit = s.digit := by rw [reseed_eq]
@[simp] theorem reseed_dim (s : State) : (reseed s).dim = s.dim := by rw [reseed_eq]
@[simp] theorem reseed_slot (s : State) :
    (reseed s).slot =
      if s.slot = 0 then cycleSeed s.dim else s.slot := by
  rw [reseed_eq]
@[simp] theorem reseed_seg (s : State) : (reseed s).seg = s.seg := by rw [reseed_eq]
@[simp] theorem reseed_anode (s : State) : (reseed s).anode = s.anode := by rw [reseed_eq]
@[simp] theorem reseed_bs (s : State) : (reseed s).bs = s.bs := by rw [reseed_eq]
@[simp] theorem reseed_lcnt (s : State) : (reseed s).lcnt = s.lcnt := by rw [reseed_eq]
@[simp] theorem reseed_scnt (s : State) : (reseed s).scnt = s.scnt := by rw [reseed_eq]
@[simp] theorem reseed_srOut (s : State) : (reseed s).srOut = s.srOut := by rw [reseed_eq]
@[simp] theorem reseed_srIn (s : State) : (reseed s).srIn = s.srIn := by rw [reseed_eq]
@[simp] theorem reseed_res (s : State) : (reseed s).res = s.res := by rw [reseed_eq]
@[simp] theorem reseed_sample (s : State) : (reseed s).sample = s.sample := by rw [reseed_eq]
@[simp] theorem reseed_t0 (s : State) :
    (reseed s).t0 =
      if s.build.analogEn = true ∧ s.slot = 0 then s.env.timer else s.t0 := by
  rw [reseed_eq]
@[simp] theorem reseed_cmpIe (s : State) :
    (reseed s).cmpIe =
      if s.build.analogEn = true ∧ s.slot = 0 then true else s.cmpIe := by
  rw [reseed_eq]
@[simp] theorem reseed_srDout (s : State) : (reseed s).srDout = s.srDout := by rw [reseed_eq]
@[simp] theorem reseed_srClk (s : State) : (reseed s).srClk = s.srClk := by rw [reseed_eq]
@[simp] theorem reseed_srLoad (s : State) : (reseed s).srLoad = s.srLoad := by rw [reseed_eq]
@[simp] theorem reseed_srDinOe (s : State) : (reseed s).srDinOe = s.srDinOe := by rw [reseed_eq]
@[simp] theorem reseed_btnCom (s : State) : (reseed s).btnCom = s.btnCom := by rw [reseed_eq]
@[simp] theorem reseed_senseDrv (s : State) :
    (reseed s).senseDrv =
      if s.build.analogEn = true then decide (s.slot ≠ 0) else s.senseDrv := by
  rw [reseed_eq]
@[simp] theorem reseed_rdata (s : State) : (reseed s).rdata = s.rdata := by rw [reseed_eq]
@[simp] theorem reseed_trace (s : State) :
    (reseed s).trace =
      s.trace ++ senseEvents s := by
  simp only [reseed_eq, senseEvents]
@[simp] theorem reseed_build (s : State) : (reseed s).build = s.build := by rw [reseed_eq]
@[simp] theorem reseed_env (s : State) : (reseed s).env = s.env := by rw [reseed_eq]
@[simp] theorem reseed_inbox (s : State) : (reseed s).inbox = s.inbox := by rw [reseed_eq]
@[simp] theorem reseed_drawIdx (s : State) : (reseed s).drawIdx = s.drawIdx := by rw [reseed_eq]

/-! Step 5 (R154). -/

@[simp] theorem advanceSlot_digit (s : State) : (advanceSlot s).digit = s.digit := rfl
@[simp] theorem advanceSlot_dim (s : State) : (advanceSlot s).dim = s.dim := rfl
@[simp] theorem advanceSlot_slot (s : State) : (advanceSlot s).slot = s.slot - 1 := rfl
@[simp] theorem advanceSlot_seg (s : State) : (advanceSlot s).seg = s.seg := rfl
@[simp] theorem advanceSlot_anode (s : State) : (advanceSlot s).anode = s.anode := rfl
@[simp] theorem advanceSlot_bs (s : State) : (advanceSlot s).bs = s.bs := rfl
@[simp] theorem advanceSlot_lcnt (s : State) : (advanceSlot s).lcnt = s.lcnt := rfl
@[simp] theorem advanceSlot_scnt (s : State) : (advanceSlot s).scnt = s.scnt := rfl
@[simp] theorem advanceSlot_srOut (s : State) : (advanceSlot s).srOut = s.srOut := rfl
@[simp] theorem advanceSlot_srIn (s : State) : (advanceSlot s).srIn = s.srIn := rfl
@[simp] theorem advanceSlot_res (s : State) : (advanceSlot s).res = s.res := rfl
@[simp] theorem advanceSlot_sample (s : State) : (advanceSlot s).sample = s.sample := rfl
@[simp] theorem advanceSlot_t0 (s : State) : (advanceSlot s).t0 = s.t0 := rfl
@[simp] theorem advanceSlot_cmpIe (s : State) : (advanceSlot s).cmpIe = s.cmpIe := rfl
@[simp] theorem advanceSlot_srDout (s : State) : (advanceSlot s).srDout = s.srDout := rfl
@[simp] theorem advanceSlot_srClk (s : State) : (advanceSlot s).srClk = s.srClk := rfl
@[simp] theorem advanceSlot_srLoad (s : State) : (advanceSlot s).srLoad = s.srLoad := rfl
@[simp] theorem advanceSlot_srDinOe (s : State) : (advanceSlot s).srDinOe = s.srDinOe := rfl
@[simp] theorem advanceSlot_btnCom (s : State) : (advanceSlot s).btnCom = s.btnCom := rfl
@[simp] theorem advanceSlot_senseDrv (s : State) : (advanceSlot s).senseDrv = s.senseDrv := rfl
@[simp] theorem advanceSlot_rdata (s : State) : (advanceSlot s).rdata = s.rdata := rfl
@[simp] theorem advanceSlot_trace (s : State) : (advanceSlot s).trace = s.trace := rfl
@[simp] theorem advanceSlot_build (s : State) : (advanceSlot s).build = s.build := rfl
@[simp] theorem advanceSlot_env (s : State) : (advanceSlot s).env = s.env := rfl
@[simp] theorem advanceSlot_inbox (s : State) : (advanceSlot s).inbox = s.inbox := rfl
@[simp] theorem advanceSlot_drawIdx (s : State) : (advanceSlot s).drawIdx = s.drawIdx := rfl

/-! Step 6 (R155). -/

@[simp] theorem lightDigit_digit (s : State) : (lightDigit s).digit = s.digit := by rw [lightDigit_eq]; split <;> rfl
@[simp] theorem lightDigit_dim (s : State) : (lightDigit s).dim = s.dim := by rw [lightDigit_eq]; split <;> rfl
@[simp] theorem lightDigit_slot (s : State) : (lightDigit s).slot = s.slot := by rw [lightDigit_eq]; split <;> rfl
@[simp] theorem lightDigit_seg (s : State) :
    (lightDigit s).seg =
      if h : s.slot.toNat < digitCount then s.digit[s.slot.toNat] else s.seg := by
  rw [lightDigit_eq]; split <;> rfl
@[simp] theorem lightDigit_anode (s : State) :
    (lightDigit s).anode =
      if s.slot.toNat < digitCount then 1#3 <<< s.slot.toNat else s.anode := by
  rw [lightDigit_eq]; split <;> rfl
@[simp] theorem lightDigit_bs (s : State) : (lightDigit s).bs = s.bs := by rw [lightDigit_eq]; split <;> rfl
@[simp] theorem lightDigit_lcnt (s : State) : (lightDigit s).lcnt = s.lcnt := by rw [lightDigit_eq]; split <;> rfl
@[simp] theorem lightDigit_scnt (s : State) : (lightDigit s).scnt = s.scnt := by rw [lightDigit_eq]; split <;> rfl
@[simp] theorem lightDigit_srOut (s : State) : (lightDigit s).srOut = s.srOut := by rw [lightDigit_eq]; split <;> rfl
@[simp] theorem lightDigit_srIn (s : State) : (lightDigit s).srIn = s.srIn := by rw [lightDigit_eq]; split <;> rfl
@[simp] theorem lightDigit_res (s : State) : (lightDigit s).res = s.res := by rw [lightDigit_eq]; split <;> rfl
@[simp] theorem lightDigit_sample (s : State) :
    (lightDigit s).sample =
      s.sample := by
  rw [lightDigit_eq]; split <;> rfl
@[simp] theorem lightDigit_t0 (s : State) : (lightDigit s).t0 = s.t0 := by rw [lightDigit_eq]; split <;> rfl
@[simp] theorem lightDigit_cmpIe (s : State) : (lightDigit s).cmpIe = s.cmpIe := by rw [lightDigit_eq]; split <;> rfl
@[simp] theorem lightDigit_srDout (s : State) :
    (lightDigit s).srDout =
      s.srDout := by
  rw [lightDigit_eq]; split <;> rfl
@[simp] theorem lightDigit_srClk (s : State) : (lightDigit s).srClk = s.srClk := by rw [lightDigit_eq]; split <;> rfl
@[simp] theorem lightDigit_srLoad (s : State) :
    (lightDigit s).srLoad =
      s.srLoad := by
  rw [lightDigit_eq]; split <;> rfl
@[simp] theorem lightDigit_srDinOe (s : State) :
    (lightDigit s).srDinOe =
      s.srDinOe := by
  rw [lightDigit_eq]; split <;> rfl
@[simp] theorem lightDigit_btnCom (s : State) :
    (lightDigit s).btnCom =
      s.btnCom := by
  rw [lightDigit_eq]; split <;> rfl
@[simp] theorem lightDigit_senseDrv (s : State) :
    (lightDigit s).senseDrv =
      s.senseDrv := by
  rw [lightDigit_eq]; split <;> rfl
@[simp] theorem lightDigit_rdata (s : State) : (lightDigit s).rdata = s.rdata := by rw [lightDigit_eq]; split <;> rfl
@[simp] theorem lightDigit_trace (s : State) :
    (lightDigit s).trace =
      s.trace ++ if h : s.slot.toNat < digitCount then [.outSeg s.digit[s.slot.toNat], .outAnode (1#3 <<< s.slot.toNat)] else [] := by
  rw [lightDigit_eq]; split <;> simp
@[simp] theorem lightDigit_build (s : State) : (lightDigit s).build = s.build := by rw [lightDigit_eq]; split <;> rfl
@[simp] theorem lightDigit_env (s : State) : (lightDigit s).env = s.env := by rw [lightDigit_eq]; split <;> rfl
@[simp] theorem lightDigit_inbox (s : State) : (lightDigit s).inbox = s.inbox := by rw [lightDigit_eq]; split <;> rfl
@[simp] theorem lightDigit_drawIdx (s : State) :
    (lightDigit s).drawIdx =
      s.drawIdx := by
  rw [lightDigit_eq]; split <;> rfl

/-- The debouncer of a tick sees BS and LCNT as they were before the tick. -/
theorem debounce_ticking (s : State) :
    (debounce s.env.btn (exchange (blankDigits s.begin))).bs = (debounce s.env.btn s).bs ∧
      (debounce s.env.btn (exchange (blankDigits s.begin))).lcnt = (debounce s.env.btn s).lcnt :=
  debounce_congr _ (by simp) (by simp) (by simp)

/-! The whole tick (R150). -/

@[simp] theorem tick_digit (s : State) : (tick s).digit = s.digit := by simp [tick]
@[simp] theorem tick_dim (s : State) : (tick s).dim = s.dim := by simp [tick]
@[simp] theorem tick_slot (s : State) : (tick s).slot = nextSlot s := by simp [tick, nextSlot]
@[simp] theorem tick_seg (s : State) :
    (tick s).seg =
      if h : (nextSlot s).toNat < digitCount then s.digit[(nextSlot s).toNat] else s.seg := by
  simp [tick, nextSlot]
@[simp] theorem tick_anode (s : State) :
    (tick s).anode =
      if (nextSlot s).toNat < digitCount then 1#3 <<< (nextSlot s).toNat else 0 := by
  simp [tick, nextSlot]
@[simp] theorem tick_bs (s : State) :
    (tick s).bs =
      if s.scnt = 1 then (debounce s.env.btn s).bs else s.bs := by
  simp [tick, (debounce_ticking s).1]
@[simp] theorem tick_lcnt (s : State) :
    (tick s).lcnt =
      if s.scnt = 1 then (debounce s.env.btn s).lcnt else s.lcnt := by
  simp [tick, (debounce_ticking s).2]
@[simp] theorem tick_scnt (s : State) :
    (tick s).scnt =
      if s.scnt = 1 then s.build.sampleTicks else s.scnt - 1 := by
  simp [tick]
@[simp] theorem tick_srOut (s : State) : (tick s).srOut = s.srOut := by simp [tick]
@[simp] theorem tick_srIn (s : State) :
    (tick s).srIn =
      if s.build.srInW.val = 0 then s.srIn else sampledWord s.env.din s.build.srInW.val := by
  simp [tick]
@[simp] theorem tick_res (s : State) : (tick s).res = s.res := by simp [tick]
@[simp] theorem tick_sample (s : State) : (tick s).sample = s.sample := by simp [tick]
@[simp] theorem tick_t0 (s : State) :
    (tick s).t0 =
      if s.build.analogEn = true ∧ s.slot = 0 then s.env.timer else s.t0 := by
  simp [tick]
@[simp] theorem tick_cmpIe (s : State) :
    (tick s).cmpIe =
      if s.build.analogEn = true ∧ s.slot = 0 then true else s.cmpIe := by
  simp [tick]
@[simp] theorem tick_srDout (s : State) :
    (tick s).srDout =
      if s.build.srOutW.val = 0 ∧ s.build.srInW.val = 0 then s.srDout else true := by
  simp [tick]
@[simp] theorem tick_srClk (s : State) :
    (tick s).srClk =
      if s.build.srOutW.val = 0 ∧ s.build.srInW.val = 0 then s.srClk else false := by
  simp [tick]
@[simp] theorem tick_srLoad (s : State) :
    (tick s).srLoad =
      if s.build.srOutW.val = 0 ∧ s.build.srInW.val = 0 then s.srLoad else true := by
  simp [tick]
@[simp] theorem tick_srDinOe (s : State) :
    (tick s).srDinOe =
      if s.build.srInW.val = 0 then s.srDinOe else true := by
  simp [tick]
@[simp] theorem tick_btnCom (s : State) : (tick s).btnCom = if s.scnt = 1 then false else s.btnCom := by simp [tick]
@[simp] theorem tick_senseDrv (s : State) :
    (tick s).senseDrv =
      if s.build.analogEn = true then decide (s.slot ≠ 0) else s.senseDrv := by
  simp [tick]
@[simp] theorem tick_rdata (s : State) : (tick s).rdata = s.rdata := by simp [tick]
@[simp] theorem tick_trace (s : State) :
    (tick s).trace =
      .outAnode 0 :: exchangeEvents s.build s.srOut ++ countdownEvents s ++ senseEvents s ++ lightEvents s := by
  simp [tick, lightEvents, nextSlot, countdownEvents, senseEvents]
@[simp] theorem tick_build (s : State) : (tick s).build = s.build := by simp [tick]
@[simp] theorem tick_env (s : State) : (tick s).env = s.env := by simp [tick]
@[simp] theorem tick_inbox (s : State) : (tick s).inbox = s.inbox := by simp [tick]
@[simp] theorem tick_drawIdx (s : State) : (tick s).drawIdx = s.drawIdx := by simp [tick]

/-- SLOT counts down without a wrap (R154). -/
theorem nextSlot_of_ne_zero {s : State} (h : s.slot ≠ 0) : (nextSlot s).toNat = s.slot.toNat - 1 := by
  have h0 : s.slot.toNat ≠ 0 := fun h' => h (BitVec.eq_of_toNat_eq h')
  rw [nextSlot, if_neg h, BitVec.toNat_sub]
  have := s.slot.isLt
  have h1 : (1 : Byte).toNat = 1 := rfl
  omega

/-- A re-seed leaves SLOT at `N + DIM`, which fits for every legal DIM (R153, C7). -/
theorem nextSlot_of_zero {s : State} (h : s.slot = 0) (hd : s.dim.toNat ≤ 251) :
    (nextSlot s).toNat = 3 + s.dim.toNat := by
  have h1 : (1 : Byte).toNat = 1 := rfl
  rw [nextSlot, if_pos h, cycleSeed, BitVec.toNat_sub, BitVec.toNat_ofNat, digitCount]
  omega

end Sys2Proof.Machine
end

