-- ==== Sys2Proof/Laws/Step.lean ====
section
/-! SUPPORT. Every command, event, step and run goes to a next state; here is that state, so that a proof about an
outcome becomes one about a state. -/

namespace Sys2Proof.Machine

/-- The state a command goes to. -/
def effect (i : Instr) (s : State) : State :=
  match exec i s with
  | .next t => t
  | .fault _ => s
  | .refused _ => s

/-- Every command goes to a next state (60_exceptions.md R180). -/
theorem exec_eq_effect (i : Instr) (s : State) : exec i s = .next (effect i s) := by
  cases i <;>
    simp only [effect, exec, execTick, execClr, execSetdig, execGetdig, execSetdim, execSetres, execGetbtn, execAckbtn,
      execSrwr, execSrrd, execGetadc, execReservedB, execReservedC, execReservedD, execReservedE, execReservedF,
      reservedCommand, State.complete] <;>
    split_ifs <;> rfl

theorem exec_next_iff {i : Instr} {s t : State} : exec i s = .next t ↔ effect i s = t := by
  rw [exec_eq_effect]
  exact ⟨fun h => by injection h, fun h => by rw [h]⟩

theorem effect_tick (s : State) : effect .tick s = (tick s).reply 0 := rfl

theorem effect_clr (s : State) :
    effect .clr s = ((s.setDigits (Vector.replicate digitCount 0x00)).begin).reply 0 := rfl

theorem effect_setdig (a : BitVec 4) (b : Byte) (s : State) :
    effect (.setdig a b) s = ((s.writeDigit a b).begin).reply 0 := rfl

theorem effect_getdig (a : BitVec 4) (s : State) :
    effect (.getdig a) s = s.begin.reply (zext32 (s.readDigit a)) := rfl

theorem effect_setdim (b : Byte) (s : State) :
    effect (.setdim b) s = (if dimLegal s.build b then s.setDim b else s).begin.reply 0 := by
  simp only [effect, exec, execSetdim, State.complete]
  split_ifs <;> rfl

theorem effect_setres (b : Byte) (s : State) :
    effect (.setres b) s =
      (if s.build.analogEn && resLegal b then s.setRes (b.extractLsb' 0 3) else s).begin.reply 0 := by
  simp only [effect, exec, execSetres, State.complete]
  split_ifs <;> rfl

theorem effect_getbtn (s : State) : effect .getbtn s = s.begin.reply (zext32 s.bs) := rfl

theorem effect_ackbtn (s : State) : effect .ackbtn s = ((s.setBs (withAck s.bs true)).begin).reply 0 := rfl

theorem effect_srwr (data : Word) (s : State) :
    effect (.srwr data) s = ((s.setSrOut (data &&& mask s.build.srOutW.val)).begin).reply 0 := rfl

theorem effect_srrd (s : State) : effect .srrd s = s.begin.reply s.srIn := rfl

theorem effect_getadc (s : State) :
    effect .getadc s = s.begin.reply (if s.build.analogEn then zext32 s.sample else 0) := by
  simp only [effect, exec, execGetadc, State.complete]
  split_ifs <;> rfl

theorem effect_reservedB (s : State) : effect .reservedB s = s.begin.reply 0 := rfl

theorem effect_reservedC (s : State) : effect .reservedC s = s.begin.reply 0 := rfl

theorem effect_reservedD (s : State) : effect .reservedD s = s.begin.reply 0 := rfl

theorem effect_reservedE (s : State) : effect .reservedE s = s.begin.reply 0 := rfl

theorem effect_reservedF (s : State) : effect .reservedF s = s.begin.reply 0 := rfl

/-- The state an event goes to. -/
def eventEffect (e : Event) (s : State) : State :=
  match e with
  | .command cmd data => effect (decode cmd data) s
  | .trip => comparatorTrip s

theorem runEvent_eq (e : Event) (s : State) : runEvent e s = .next (eventEffect e s) := by
  cases e with
  | command cmd data => exact exec_eq_effect _ s
  | trip => rfl

/-- A step runs the event at the front of the inputs. -/
theorem step_cons (s : State) (i : Input) (rest : List Input) :
    step { s with inbox := i :: rest } = .next (eventEffect i.event (s.accept i.draws rest)) := by
  have h : ({ s with inbox := i :: rest } : State).accept i.draws rest = s.accept i.draws rest := by
    cases i.draws <;> rfl
  simp only [step, runEvent_eq, h]

/-- Once for every step: it does nothing, or it runs the event at the front of the inputs. -/
theorem step_cases (s : State) :
    (s.inbox = [] ∧ step s = .next s) ∨
      ∃ i rest, s.inbox = i :: rest ∧ step s = .next (eventEffect i.event (s.accept i.draws rest)) := by
  rcases h : s.inbox with _ | ⟨i, rest⟩
  · exact .inl ⟨rfl, by simp [step, h]⟩
  · exact .inr ⟨i, rest, rfl, by simp [step, h, runEvent_eq]⟩

/-- A comparator trip, field by field: SAMPLE and CMP_IE with their new values where CMP_IE is 1 (42_analog.md R140,
R141). -/
theorem comparatorTrip_eq (s : State) :
    comparatorTrip s =
      if s.cmpIe = true then { s with
        trace := []
        cmpIe := false
        sample := sampleAfter s.build s.res s.sample (elapsed s.env.timer s.t0) }
      else s := rfl

/-- No event touches the inputs or the build. -/
theorem effect_inputs (i : Instr) (s : State) :
    (effect i s).inbox = s.inbox ∧ (effect i s).build = s.build ∧ (effect i s).env = s.env ∧
      (effect i s).drawIdx = s.drawIdx := by
  cases i
  case tick => simp [effect_tick]
  case setdig a b => by_cases h : a.toNat < digitCount <;> simp [effect_setdig, State.writeDigit, h]
  case setdim b => rw [effect_setdim]; split_ifs <;> simp
  case setres b => rw [effect_setres]; split_ifs <;> simp
  all_goals
    simp [effect_clr, effect_getdig, effect_getbtn, effect_ackbtn, effect_srwr, effect_srrd,
      effect_getadc, effect_reservedB, effect_reservedC, effect_reservedD, effect_reservedE, effect_reservedF]

theorem eventEffect_inputs (e : Event) (s : State) :
    (eventEffect e s).inbox = s.inbox ∧ (eventEffect e s).build = s.build ∧ (eventEffect e s).env = s.env ∧
      (eventEffect e s).drawIdx = s.drawIdx := by
  cases e with
  | command cmd data => exact effect_inputs _ s
  | trip =>
    simp only [eventEffect, comparatorTrip_eq]
    split_ifs <;> simp

/-- The state a run of inputs goes to. -/
def runState : State → List Input → State
  | s, [] => { s with inbox := [] }
  | s, i :: rest => runState (eventEffect i.event (s.accept i.draws rest)) rest

theorem withInbox_self {s : State} {l : List Input} (h : s.inbox = l) : ({ s with inbox := l } : State) = s := by
  subst h; rfl

/-- Every run goes to a next state, one input after the other (20_memory.md R57). -/
theorem runAll_eq (s : State) (ins : List Input) : runAll s ins = .next (runState s ins) := by
  induction ins generalizing s with
  | nil => rfl
  | cons i rest ih =>
    have hin : (eventEffect i.event (s.accept i.draws rest)).inbox = rest := by
      rw [(eventEffect_inputs _ _).1]; simp
    have h := ih (eventEffect i.event (s.accept i.draws rest))
    rw [runAll, withInbox_self hin] at h
    have hstep : Sys2Proof.core.step { s with inbox := i :: rest } =
        .next (eventEffect i.event (s.accept i.draws rest)) := step_cons s i rest
    simp only [runAll, List.length_cons, Host.Core.run, hstep]
    exact h

/-- Package an induction over runs once: what every event keeps, every run keeps. -/
theorem runState_keeps {P : State → Prop} (hinbox : ∀ s d rest, P s → P (s.accept d rest))
    (hempty : ∀ s : State, P s → P { s with inbox := [] })
    (hevent : ∀ e s, P s → P (eventEffect e s)) (ins : List Input) (s : State) (h : P s) :
    P (runState s ins) := by
  induction ins generalizing s with
  | nil => exact hempty s h
  | cons i rest ih => exact ih _ (hevent _ _ (hinbox _ _ _ h))

end Sys2Proof.Machine
end

