-- ==== Sys2Proof/Laws/Frames.lean ====
section
/-! SUPPORT. Frames: `Keeps`, and what a tick keeps. -/

namespace Sys2Proof.Machine

theorem Keeps.refl (ws : List Reg) (s : State) : Keeps ws s s := ⟨fun _ _ => rfl, rfl, rfl, rfl, rfl⟩

/-- A step that may write less may write more. -/
theorem Keeps.mono {ws ws' : List Reg} {s t : State} (h : Keeps ws s t) (hsub : ∀ r ∈ ws, r ∈ ws') : Keeps ws' s t :=
  ⟨fun r hr => h.1 r fun h' => hr (hsub r h'), h.2⟩

theorem Keeps.trans {ws : List Reg} {s t u : State} (h : Keeps ws s t) (h' : Keeps ws t u) : Keeps ws s u :=
  ⟨fun r hr => (h'.1 r hr).trans (h.1 r hr), h'.2.1.trans h.2.1, h'.2.2.1.trans h.2.2.1,
    h'.2.2.2.1.trans h.2.2.2.1, h'.2.2.2.2.trans h.2.2.2.2⟩

/-- The outputs of a step are no registers: clearing the trace and giving an answer keep everything. -/
theorem keeps_begin_reply (ws : List Reg) (s : State) (v : Word) : Keeps ws s (s.begin.reply v) := by
  refine ⟨fun r hr => ?_, rfl, rfl, rfl, rfl⟩
  clear hr
  cases r
  case line l => cases l <;> rfl
  all_goals rfl

theorem keeps_reply (ws : List Reg) (s : State) (v : Word) : Keeps ws s (s.reply v) := by
  refine ⟨fun r hr => ?_, rfl, rfl, rfl, rfl⟩
  clear hr
  cases r
  case line l => cases l <;> rfl
  all_goals rfl

theorem keeps_setDigits (s : State) (ds : Vector Byte digitCount) :
    Keeps [.digit 0, .digit 1, .digit 2] s (s.setDigits ds) := by
  refine ⟨fun r hr => ?_, rfl, rfl, rfl, rfl⟩
  cases r
  case digit k => exact absurd (by fin_cases k <;> [simp; simp; (simp; rfl)]) hr
  case line l => cases l <;> rfl
  all_goals rfl

/-- SETDIG writes no digit but the one at its position (43_display.md R160). -/
theorem keeps_writeDigit (s : State) (a : BitVec 4) (v : Byte) :
    Keeps (mayWrite (.setdig a v)) s (s.writeDigit a v) := by
  by_cases h : a.toNat < digitCount
  · simp only [State.writeDigit, mayWrite, dif_pos h]
    refine ⟨fun r hr => ?_, rfl, rfl, rfl, rfl⟩
    cases r
    case digit k =>
      have hne : a.toNat ≠ k.val := fun he => hr (by simp [he])
      simp [State.value, Vector.getElem_set_ne, hne]
    case line l => cases l <;> rfl
    all_goals rfl
  · simp only [State.writeDigit, dif_neg h]
    exact Keeps.refl _ _

theorem keeps_setDim (s : State) (v : Byte) : Keeps [.dim] s (s.setDim v) := by
  refine ⟨fun r hr => ?_, rfl, rfl, rfl, rfl⟩
  cases r
  case dim => simp at hr
  case line l => cases l <;> rfl
  all_goals rfl

theorem keeps_setRes (s : State) (v : BitVec 3) : Keeps [.res] s (s.setRes v) := by
  refine ⟨fun r hr => ?_, rfl, rfl, rfl, rfl⟩
  cases r
  case res => simp at hr
  case line l => cases l <;> rfl
  all_goals rfl

theorem keeps_setBs (s : State) (v : Byte) : Keeps [.bs] s (s.setBs v) := by
  refine ⟨fun r hr => ?_, rfl, rfl, rfl, rfl⟩
  cases r
  case bs => simp at hr
  case line l => cases l <;> rfl
  all_goals rfl

theorem keeps_setSrOut (s : State) (v : Word) : Keeps [.srOut] s (s.setSrOut v) := by
  refine ⟨fun r hr => ?_, rfl, rfl, rfl, rfl⟩
  cases r
  case srOut => simp at hr
  case line l => cases l <;> rfl
  all_goals rfl

/-- A debouncer run keeps all but BS and LCNT (40_buttons.md R102). -/
theorem keeps_debounce (r : BitVec 2) (s : State) : Keeps [.bs, .lcnt] s (debounce r s) := by
  refine ⟨fun g hg => ?_, by simp, by simp, by simp, by simp⟩
  cases g
  case bs => simp at hg
  case lcnt => simp at hg
  case line l => cases l <;> simp [State.value, State.level]
  all_goals simp [State.value]

/-- A trip keeps all but SAMPLE and CMP_IE (42_analog.md R140). -/
theorem keeps_comparatorTrip (s : State) : Keeps captureWrites s (comparatorTrip s) := by
  rw [comparatorTrip_eq]
  split
  · refine ⟨fun r hr => ?_, rfl, rfl, rfl, rfl⟩
    cases r
    case sample => simp [captureWrites] at hr
    case cmpIe => simp [captureWrites] at hr
    case line l => cases l <;> rfl
    all_goals rfl
  · exact Keeps.refl _ _

/-- A tick keeps DIGIT, DIM, SR_OUT, RES and SAMPLE (10_state.md R41). -/
theorem keeps_tick (s : State) : Keeps (mayWrite .tick) s (tick s) := by
  refine ⟨fun r hr => ?_, by simp, by simp, by simp, by simp⟩
  cases r
  case line l => cases l <;> simp [mayWrite] at hr
  all_goals first | (simp [mayWrite] at hr; done) | simp [State.value]

end Sys2Proof.Machine
end

