-- ==== Sys2Proof/Laws/PerInstr.lean ====
section
/-! SUPPORT. Per instruction: where the encoder puts its opcode and operands. -/

namespace Sys2Proof.Laws.OpcodePlaced

/-- The encoder puts the opcode in `CMD[15:12]`, A in `CMD[11:8]` and B in `CMD[7:0]` (30_encoding.md R71, R80). -/
def Statement (i : Instr) : Prop :=
  fieldOp (encodeCmd i) = opcode i ∧ fieldA (encodeCmd i) = operandA i ∧ fieldB (encodeCmd i) = operandB i

theorem of_append (i : Instr) : Statement i := ⟨fieldOp_append _ _ _, fieldA_append _ _ _, fieldB_append _ _ _⟩

theorem tick : Statement .tick := of_append _
theorem clr : Statement .clr := of_append _
theorem setdig (a : BitVec 4) (b : Byte) : Statement (.setdig a b) := of_append _
theorem getdig (a : BitVec 4) : Statement (.getdig a) := of_append _
theorem setdim (b : Byte) : Statement (.setdim b) := of_append _
theorem setres (b : Byte) : Statement (.setres b) := of_append _
theorem getbtn : Statement .getbtn := of_append _
theorem ackbtn : Statement .ackbtn := of_append _
theorem srwr (data : Word) : Statement (.srwr data) := of_append _
theorem srrd : Statement .srrd := of_append _
theorem getadc : Statement .getadc := of_append _
theorem reservedB : Statement .reservedB := of_append _
theorem reservedC : Statement .reservedC := of_append _
theorem reservedD : Statement .reservedD := of_append _
theorem reservedE : Statement .reservedE := of_append _
theorem reservedF : Statement .reservedF := of_append _

end Sys2Proof.Laws.OpcodePlaced
end

