-- ==== Sys2Proof/Laws/Preempt.lean ====
section
/-! SUPPORT. What a capture in the middle of another step does, field by field (20_memory.md R58), and when two states
are one. -/

namespace Sys2Proof.Machine

/-- Two states that agree in every field are one state. -/
theorem State.eq_of_fields {s t : State}
    (h0 : s.digit = t.digit)
    (h1 : s.dim = t.dim)
    (h2 : s.slot = t.slot)
    (h3 : s.seg = t.seg)
    (h4 : s.anode = t.anode)
    (h5 : s.bs = t.bs)
    (h6 : s.lcnt = t.lcnt)
    (h7 : s.scnt = t.scnt)
    (h8 : s.srOut = t.srOut)
    (h9 : s.srIn = t.srIn)
    (h10 : s.res = t.res)
    (h11 : s.sample = t.sample)
    (h12 : s.t0 = t.t0)
    (h13 : s.cmpIe = t.cmpIe)
    (h14 : s.srDout = t.srDout)
    (h15 : s.srClk = t.srClk)
    (h16 : s.srLoad = t.srLoad)
    (h17 : s.srDinOe = t.srDinOe)
    (h18 : s.btnCom = t.btnCom)
    (h19 : s.senseDrv = t.senseDrv)
    (h20 : s.rdata = t.rdata)
    (h21 : s.trace = t.trace)
    (h22 : s.build = t.build)
    (h23 : s.env = t.env)
    (h24 : s.inbox = t.inbox)
    (h25 : s.drawIdx = t.drawIdx) : s = t := by
  cases s
  cases t
  simp_all

theorem preempt_eq (d : Draws) (s : State) :
    preempt d s = { s with
      cmpIe := false
      sample :=
        if s.cmpIe = true then sampleAfter s.build s.res s.sample (elapsed d.timer s.t0) else s.sample } := by
  rw [preempt, comparatorTrip_eq]
  cases h : s.cmpIe <;> apply State.eq_of_fields <;> simp

@[simp] theorem preempt_digit (d : Draws) (s : State) : (preempt d s).digit = s.digit := by rw [preempt_eq]
@[simp] theorem preempt_dim (d : Draws) (s : State) : (preempt d s).dim = s.dim := by rw [preempt_eq]
@[simp] theorem preempt_slot (d : Draws) (s : State) : (preempt d s).slot = s.slot := by rw [preempt_eq]
@[simp] theorem preempt_seg (d : Draws) (s : State) : (preempt d s).seg = s.seg := by rw [preempt_eq]
@[simp] theorem preempt_anode (d : Draws) (s : State) : (preempt d s).anode = s.anode := by rw [preempt_eq]
@[simp] theorem preempt_bs (d : Draws) (s : State) : (preempt d s).bs = s.bs := by rw [preempt_eq]
@[simp] theorem preempt_lcnt (d : Draws) (s : State) : (preempt d s).lcnt = s.lcnt := by rw [preempt_eq]
@[simp] theorem preempt_scnt (d : Draws) (s : State) : (preempt d s).scnt = s.scnt := by rw [preempt_eq]
@[simp] theorem preempt_srOut (d : Draws) (s : State) : (preempt d s).srOut = s.srOut := by rw [preempt_eq]
@[simp] theorem preempt_srIn (d : Draws) (s : State) : (preempt d s).srIn = s.srIn := by rw [preempt_eq]
@[simp] theorem preempt_res (d : Draws) (s : State) : (preempt d s).res = s.res := by rw [preempt_eq]
@[simp] theorem preempt_sample (d : Draws) (s : State) :
    (preempt d s).sample =
      if s.cmpIe = true then sampleAfter s.build s.res s.sample (elapsed d.timer s.t0) else s.sample := by
  rw [preempt_eq]
@[simp] theorem preempt_t0 (d : Draws) (s : State) : (preempt d s).t0 = s.t0 := by rw [preempt_eq]
@[simp] theorem preempt_cmpIe (d : Draws) (s : State) : (preempt d s).cmpIe = false := by rw [preempt_eq]
@[simp] theorem preempt_srDout (d : Draws) (s : State) : (preempt d s).srDout = s.srDout := by rw [preempt_eq]
@[simp] theorem preempt_srClk (d : Draws) (s : State) : (preempt d s).srClk = s.srClk := by rw [preempt_eq]
@[simp] theorem preempt_srLoad (d : Draws) (s : State) : (preempt d s).srLoad = s.srLoad := by rw [preempt_eq]
@[simp] theorem preempt_srDinOe (d : Draws) (s : State) : (preempt d s).srDinOe = s.srDinOe := by rw [preempt_eq]
@[simp] theorem preempt_btnCom (d : Draws) (s : State) : (preempt d s).btnCom = s.btnCom := by rw [preempt_eq]
@[simp] theorem preempt_senseDrv (d : Draws) (s : State) : (preempt d s).senseDrv = s.senseDrv := by rw [preempt_eq]
@[simp] theorem preempt_rdata (d : Draws) (s : State) : (preempt d s).rdata = s.rdata := by rw [preempt_eq]
@[simp] theorem preempt_trace (d : Draws) (s : State) : (preempt d s).trace = s.trace := by rw [preempt_eq]
@[simp] theorem preempt_build (d : Draws) (s : State) : (preempt d s).build = s.build := by rw [preempt_eq]
@[simp] theorem preempt_env (d : Draws) (s : State) : (preempt d s).env = s.env := by rw [preempt_eq]
@[simp] theorem preempt_inbox (d : Draws) (s : State) : (preempt d s).inbox = s.inbox := by rw [preempt_eq]
@[simp] theorem preempt_drawIdx (d : Draws) (s : State) : (preempt d s).drawIdx = s.drawIdx := by rw [preempt_eq]

theorem runPieces_nil (s : State) : runPieces [] s = s := rfl

theorem runPieces_cons (p : Piece) (ps : List Piece) (s : State) :
    runPieces (p :: ps) s = runPieces ps (Piece.run s p) := rfl

theorem runPieces_append (ps qs : List Piece) (s : State) :
    runPieces (ps ++ qs) s = runPieces qs (runPieces ps s) := List.foldl_append

/-- The actions of the output phase do what the output phase does (41_shiftreg.md R111). -/
theorem runPieces_outputEvents (n : Nat) (s : State) :
    runPieces ((outputEvents s.srOut n).map .event) s = outputBits n s := by
  suffices h : ∀ (w : Word) (n : Nat) (s : State), s.srOut = w →
      runPieces ((outputEvents w n).map .event) s = outputBits n s from h s.srOut n s rfl
  intro w n
  induction n with
  | zero => intro s _; rfl
  | succ n ih =>
    intro s h
    subst h
    exact ih (s.out .srDout (s.srOut.getLsbD n)).pulse rfl

/-- The actions of `n` clock pulses leave the clock low and append their events (00_scope.md R12). -/
theorem runPieces_pulsesEvents (n : Nat) (s : State) :
    runPieces ((pulsesEvents n).map .event) s =
      { s with srClk := if n = 0 then s.srClk else false, trace := s.trace ++ pulsesEvents n } := by
  induction n generalizing s with
  | zero => simp [pulsesEvents, runPieces]
  | succ n ih =>
    have h : runPieces ((pulsesEvents (n + 1)).map .event) s = runPieces ((pulsesEvents n).map .event) s.pulse := rfl
    rw [h, ih]
    rcases n with _ | n <;> simp [State.pulse, State.wait, State.emit, State.out, pulsesEvents, pulseEvents]

/-- The actions of the exchange do what the exchange does (41_shiftreg.md R110). -/
theorem runPieces_exchangePieces (s : State) : runPieces (exchangePieces s) s = exchange s := by
  by_cases h0 : s.build.srOutW.val = 0 ∧ s.build.srInW.val = 0
  · rw [exchangePieces, if_pos h0, exchange_eq, if_pos h0]
    rfl
  · rw [exchangePieces, if_neg h0, runPieces_append, runPieces_append, runPieces_outputEvents, outputBits_eq,
      exchange_eq, if_neg h0]
    by_cases hi : s.build.srInW.val = 0
    · have ho : s.build.srOutW.val ≠ 0 := fun h => h0 ⟨h, hi⟩
      simp [hi, ho, runPieces, Piece.run, State.out, exchangeEvents]
    · rw [if_neg hi, List.cons_append, runPieces_cons, runPieces_append, runPieces_pulsesEvents]
      simp [hi, runPieces, Piece.run, State.out, State.setSrIn, exchangeEvents]

/-- The actions of the countdown do what the countdown does (40_buttons.md R90). -/
theorem runPieces_countdownPieces (s : State) : runPieces (countdownPieces s) s = sampleCountdown s := by
  rw [countdownPieces, sampleCountdown_eq]
  by_cases h : s.scnt = 1
  · have h' : s.scnt - 1 = 0 := (sub_one_eq_zero_iff _).mpr h
    rw [if_pos h', if_pos h]
    simp [runPieces, Piece.run, State.setScnt, State.setBs, State.setLcnt, State.out, State.wait, State.emit]
  · have h' : ¬s.scnt - 1 = 0 := fun h' => h ((sub_one_eq_zero_iff _).mp h')
    rw [if_neg h', if_neg h]
    rfl

/-- The trace's order of the actions is that of their events, and events change only lines, output registers and the
trace. -/
theorem runPieces_events_trace (es : List PinEvent) (s : State) :
    (runPieces (es.map .event) s).trace = s.trace ++ es := by
  induction es generalizing s with
  | nil => simp [runPieces]
  | cons e es ih =>
    rw [List.map_cons, runPieces_cons, ih]
    rcases e with ⟨l, v⟩ | v | v | t
    · cases l <;> simp [Piece.run, State.out]
    all_goals simp [Piece.run, State.setSeg, State.setAnode, State.wait, State.emit]

end Sys2Proof.Machine
end

