-- ==== Sys2Proof/Laws/Runs.lean ====
section
/-! SUPPORT. Runs of commands and trips: an input is a tick, another command or a trip; and what the inputs that are
no ticks leave alone. -/

namespace Sys2Proof.Machine

theorem tickCount_nil : tickCount [] = 0 := rfl

theorem tickCount_cons (i : Input) (rest : List Input) :
    tickCount (i :: rest) = (if isTick i = true then 1 else 0) + tickCount rest := by
  simp only [tickCount, List.filter_cons]
  split_ifs <;> simp [Nat.add_comm]

theorem runState_cons (s : State) (i : Input) (rest : List Input) :
    runState s (i :: rest) = runState (eventEffect i.event (s.accept i.draws rest)) rest := rfl

/-- Every input is a tick, a command that is no tick, or a comparator trip. -/
theorem eventEffect_cases (i : Input) (s : State) :
    (isTick i = true ∧ eventEffect i.event s = effect .tick s) ∨
      (isTick i = false ∧ ∃ j, j ≠ Instr.tick ∧ eventEffect i.event s = effect j s) ∨
      (isTick i = false ∧ eventEffect i.event s = comparatorTrip s) := by
  rcases i with ⟨e, d⟩
  cases e with
  | trip => exact .inr (.inr ⟨rfl, rfl⟩)
  | command c w =>
    by_cases h : fieldOp c = 0
    · refine .inl ⟨by simp [isTick, h], ?_⟩
      simp only [eventEffect, decode, h]
      rfl
    · refine .inr (.inl ⟨by simp only [isTick, h, decide_false], _, ?_, rfl⟩)
      intro hd
      rw [← fields_append c] at hd
      simp only [decode, fieldOp_append] at hd
      have : (fieldOp c).toNat ≠ 0 := fun h' => h (BitVec.eq_of_toNat_eq h')
      revert hd
      split <;> simp_all

/-- A command that is no tick leaves every register alone that only ticks and captures write (10_state.md R41). -/
theorem effect_of_ne_tick {i : Instr} (h : i ≠ .tick) (s : State) :
    (effect i s).slot = s.slot ∧ (effect i s).seg = s.seg ∧ (effect i s).anode = s.anode ∧
      (effect i s).scnt = s.scnt ∧ (effect i s).lcnt = s.lcnt ∧ (effect i s).srIn = s.srIn ∧
      (effect i s).t0 = s.t0 ∧ (effect i s).cmpIe = s.cmpIe ∧ (effect i s).sample = s.sample ∧
      (effect i s).senseDrv = s.senseDrv := by
  cases i
  case tick => exact absurd rfl h
  case setdig a b => by_cases h : a.toNat < digitCount <;> simp [effect_setdig, State.writeDigit, h]
  case setdim b => rw [effect_setdim]; split_ifs <;> simp
  case setres b => rw [effect_setres]; split_ifs <;> simp
  all_goals
    simp [effect_clr, effect_getdig, effect_getbtn, effect_ackbtn, effect_srwr, effect_srrd,
      effect_getadc, effect_reservedB, effect_reservedC, effect_reservedD, effect_reservedE, effect_reservedF]

/-- A trip leaves every register alone but SAMPLE and CMP_IE (42_analog.md R140). -/
theorem comparatorTrip_fields (s : State) :
    (comparatorTrip s).slot = s.slot ∧ (comparatorTrip s).anode = s.anode ∧ (comparatorTrip s).scnt = s.scnt ∧
      (comparatorTrip s).bs = s.bs ∧ (comparatorTrip s).lcnt = s.lcnt ∧ (comparatorTrip s).res = s.res ∧
      (comparatorTrip s).senseDrv = s.senseDrv ∧ (comparatorTrip s).cmpIe = false := by
  rw [comparatorTrip_eq]
  split_ifs with h <;> simp_all

end Sys2Proof.Machine
end

