-- ==== Sys2Proof/Laws/Word.lean ====
section
/-! SUPPORT. The bits of a mask (00_scope.md R10). -/

namespace Sys2Proof

/-- A mask of a width up to 32 has its low bits set and no other. -/
theorem mask_getLsbD {w : Nat} (hw : w ≤ 32) (k : Nat) : (mask w).getLsbD k = decide (k < w) := by
  rw [mask, BitVec.getLsbD_ofNat, Nat.testBit_two_pow_sub_one]
  rcases Nat.lt_or_ge k w with h | h
  · simp [h, Nat.lt_of_lt_of_le h hw]
  · simp [Nat.not_lt.mpr h]

end Sys2Proof
end

