-- ==== Sys2Proof/Tests/Slice0.lean ====
section
/-! SUPPORT. Tests. Every expected value is from 95_test_vectors.md, whose vector each comment names, or from the rule
named there. At the end, for each statement with hypotheses, values that meet all of them together. -/

open Sys2Proof Sys2Proof.Machine

namespace Sys2Proof.Tests

/-- The draws of a step. -/
def draw (btn : BitVec 2) (din : Word) (timer : Byte) : Draws := ⟨btn, din, timer⟩

/-- The state after one step that runs one event, with these draws, from the registers of `s`. -/
def after (s : State) (e : Event) (d : Draws) : Option State :=
  match step { s with inbox := [⟨e, some d⟩] } with
  | .next t => some t
  | .fault _ => none
  | .refused _ => none

/-- The state after one step that runs a command. -/
def cmd (s : State) (c : CmdWord) (data : Word) : Option State := after s (.command c data) (draw 0 0 0)

/-- The state after one TICK with these draws. -/
def ticked (s : State) (d : Draws) : Option State := after s (.command 0x0000 0) d

/-- A build with these shift-register widths. -/
def widths (o i : Fin 33) : Build := { Config.defaultBuild with srOutW := o, srInW := i }

/-- The parameters of vectors B1 to B13. -/
def buttonBuild : Build :=
  { Config.defaultBuild with srOutW := 0, srInW := 0, analogEn := false, sampleTicks := 1, longSamples := 3 }

/-- The start of V1. -/
def v1 : State := { State.reset with digit := #v[0x3F, 0x06, 0x5B] }

/-- An armed sampler with this level, sample and start value. -/
def armed (res : BitVec 3) (old t0 : Byte) : State :=
  { State.reset with res := res, sample := old, t0 := t0, cmpIe := true, slot := 3, senseDrv := false }

/-- SAMPLE after the comparator trips at timer value `t1`. -/
def captured (res : BitVec 3) (old t0 t1 : Byte) : Option Byte :=
  (after (armed res old t0) .trip (draw 0 0 t1)).map (·.sample)

/-! ### Well-formedness: each check refuses a line (R80, R81) -/

theorem test_refuses_position_16 : assemble (.setdig 16 0) = .error .operandOutOfRange := by decide
theorem test_refuses_pattern_256 : assemble (.setdig 15 256) = .error .operandOutOfRange := by decide
theorem test_refuses_getdig_16 : assemble (.getdig 16) = .error .operandOutOfRange := by decide
theorem test_refuses_level_256 : assemble (.setdim 256) = .error .operandOutOfRange := by decide
theorem test_refuses_resolution_256 : assemble (.setres 256) = .error .operandOutOfRange := by decide
theorem test_refuses_word_2_32 : assemble (.srwr 0x100000000) = .error .operandOutOfRange := by decide
theorem test_refuses_setall_256 : assemble (.setall 0 0 256) = .error .operandOutOfRange := by decide

/-- A position the block will ignore is still a legal line (R80). -/
theorem test_accepts_position_15 : assemble (.setdig 15 255) = .ok [(0x2FFF, 0)] := by decide

/-- 30_encoding.md R81: SETALL's order, with the words of P1. -/
theorem test_setall : assembleText "SETALL 0x5B, 6, 0x3F".toList =
    .ok [(0x225B, 0), (0x2106, 0), (0x203F, 0)] := by decide

/-- P3, line 2. -/
theorem test_assemble_srwr : assembleText "SRWR 0xC3".toList = .ok [(0x8000, 0xC3)] := by decide

theorem test_assemble_unknown : assembleText "HALT".toList = .error .unknownMnemonic := by decide

/-! ### Decoding: words of 95_test_vectors.md 2.1 and section 3, bit by bit as OP, A, B -/

theorem test_decode_tick : decode 0b0000_1111_11111111#16 7 = .tick := by decide
theorem test_decode_clr : decode 0b0001_1010_10111100#16 0 = .clr := by decide
theorem test_decode_setdig : decode 0b0010_0010_01011011#16 0 = .setdig 2 0x5B := by decide
theorem test_decode_getdig : decode 0b0011_0001_11111111#16 0 = .getdig 1 := by decide
theorem test_decode_setdim : decode 0b0100_1111_00000010#16 0 = .setdim 2 := by decide
theorem test_decode_setres : decode 0b0101_0000_00000011#16 0 = .setres 3 := by decide
theorem test_decode_getbtn : decode 0b0110_0000_00000000#16 0 = .getbtn := by decide
theorem test_decode_ackbtn : decode 0b0111_0000_00000000#16 0 = .ackbtn := by decide
theorem test_decode_srwr : decode 0b1000_0001_00100011#16 0xA5 = .srwr 0xA5 := by decide
theorem test_decode_srrd : decode 0b1001_0000_00000000#16 0 = .srrd := by decide
theorem test_decode_getadc : decode 0b1010_0000_00000000#16 0 = .getadc := by decide
theorem test_decode_reserved :
    decode 0b1011_0000_00000000#16 0 = .reservedB ∧ decode 0b1100_0001_00100011#16 0 = .reservedC ∧
      decode 0b1101_1111_11111111#16 0 = .reservedD ∧ decode 0b1110_0000_00000000#16 0 = .reservedE ∧
      decode 0b1111_0000_00000000#16 0 = .reservedF := by decide

/-- R78: no form is longer than CMD and DATA. -/
theorem test_refuses_49_bits : decodeTransaction 49 0 = .error .longerThanTransaction := by decide

/-! ### One step of each command -/

/-- V1, tick 1: the arming tick. -/
theorem test_tick_arms : (ticked v1 (draw 0 0 42)).map (fun t => (t.slot, t.anode, t.seg, t.senseDrv, t.t0)) =
    some (3, 0b000, 0x00, false, 42) := by decide

/-- V1, tick 2: digit 2 lit. -/
theorem test_tick_lights :
    (ticked { v1 with slot := 3, senseDrv := false } (draw 0 0 0)).map (fun t => (t.slot, t.anode, t.seg, t.senseDrv)) =
      some (2, 0b100, 0x5B, true) := by decide

/-- V6. -/
theorem test_clr_keeps_lines :
    (cmd { v1 with seg := 0x3F, anode := 1 } 0x1000 0).map (fun t => (t.digit, t.seg, t.anode)) =
      some (#v[0, 0, 0], 0x3F, 1) := by decide

/-- V5. -/
theorem test_setdig_0 : (cmd State.reset 0x2080 0).map (·.digit) = some #v[0x80, 0, 0] := by decide

/-- V5: position 3. -/
theorem test_setdig_3 : (cmd State.reset 0x23FF 0).map (·.digit) = some #v[0, 0, 0] := by decide

/-- V5. -/
theorem test_getdig_2 : (cmd v1 0x3200 0).map (·.rdata) = some 0x5B := by decide

/-- V5: position 3. -/
theorem test_getdig_3 : (cmd { v1 with rdata := 9 } 0x3300 0).map (·.rdata) = some 0 := by decide

/-- V4: 252 is above P_DIM_MAX. -/
theorem test_setdim_252 : (cmd { State.reset with dim := 251 } 0x40FC 0).map (·.dim) = some 251 := by decide

/-- P4, line 4. -/
theorem test_setdim_5 : (cmd State.reset 0x4005 0).map (·.dim) = some 5 := by decide

/-- A22. -/
theorem test_setres_3 : (cmd State.reset 0x5003 0).map (·.res) = some 3 := by decide

/-- A22: 8 is no level. -/
theorem test_setres_8 : (cmd { State.reset with res := 3 } 0x5008 0).map (·.res) = some 3 := by decide

/-- B15. -/
theorem test_getbtn : (cmd { State.reset with bs := 0x61 } 0x6000 0).map (fun t => (t.rdata, t.bs)) =
    some (0x61, 0x61) := by decide

/-- P2, line 9. -/
theorem test_ackbtn : (cmd { State.reset with bs := 0x61 } 0x7000 0).map (·.bs) = some 0xE1 := by decide

/-- X2: masked to 4 bits. -/
theorem test_srwr_masks : (cmd (State.resetOf (widths 4 12)) 0x8000 0xFFFFFFF3).map (·.srOut) = some 0x3 := by decide

/-- P3, line 4. -/
theorem test_srrd : (cmd { State.reset with srIn := 0xC3 } 0x9000 0).map (·.rdata) = some 0xC3 := by decide

/-- P3, line 5. -/
theorem test_getadc : (cmd { State.reset with sample := 13 } 0xA000 0).map (·.rdata) = some 13 := by decide

/-- A22: without the sampler GETADC returns 0. -/
theorem test_getadc_absent :
    (cmd { State.resetOf buttonBuild with sample := 13 } 0xA000 0).map (·.rdata) = some 0 := by decide

/-- P4, lines 6 and 7: nothing but rdata = 0. -/
theorem test_reserved :
    cmd { v1 with rdata := 9 } 0xB123 0 = some v1 ∧ cmd { v1 with rdata := 9 } 0xF000 0 = some v1 := by decide

/-! ### The agents inside a tick -/

/-- X6: the first bits sampled end high. -/
theorem test_exchange_x6 : (exchange { State.resetOf (widths 4 8) with env := draw 0 0x5 0 }).srIn = 0xA0 := by decide

/-- X9: 17 events, the strobe first. -/
theorem test_exchange_x9 : (exchange (State.resetOf (widths 0 4))).trace.length = 17 ∧
    (exchange (State.resetOf (widths 0 4))).trace.take 4 =
      [.out .srDout true, .out .srLoad false, .out .srLoad true, .out .srDinOe false] := by decide

/-- B6 from tick 1: both buttons join a short press. -/
theorem test_debounce_b6 :
    (debounce 0b11 { State.resetOf buttonBuild with bs := 0x41, lcnt := 3 }).bs = 0x43 ∧
      (debounce 0b11 { State.resetOf buttonBuild with bs := 0x43, lcnt := 1 }).bs = 0x63 := by decide

/-- B3, tick 5, and B4, tick 5: the two long releases differ in LONG. -/
theorem test_debounce_releases :
    (debounce 0b00 { State.resetOf buttonBuild with bs := 0xE1 }).bs = 0x21 ∧
      (debounce 0b00 { State.resetOf buttonBuild with bs := 0x61 }).bs = 0x01 := by decide

/-- B8: switching to the other button changes nothing. -/
theorem test_debounce_b8 :
    debounce 0b10 { State.resetOf buttonBuild with bs := 0x41, lcnt := 3 } =
      { State.resetOf buttonBuild with bs := 0x41, lcnt := 3 } := by decide

/-- A7, A8, A11: the filter at level 6, saturated or not. -/
theorem test_capture_level_6 :
    captured 6 255 0 255 = some 255 ∧ captured 6 0 0 171 = some 64 ∧ captured 6 255 0 172 = some 255 := by decide

/-- A12 to A15: the other levels. -/
theorem test_capture_levels :
    captured 4 40 0 200 = some 68 ∧ captured 2 0 0 200 = some 19 ∧ captured 1 0 0 200 = some 13 ∧
      captured 1 3 0 3 = some 2 := by decide

/-- A2 and A16: off, and full resolution across the timer's wrap. -/
theorem test_capture_ends : captured 0 55 10 110 = some 0 ∧ captured 7 0 250 4 = some 10 := by decide

/-- A20. -/
theorem test_capture_disables : (after (armed 7 0 10) .trip (draw 0 0 110)).map (·.cmpIe) = some false := by decide

/-! ### Witnesses: values that meet the hypotheses of each statement -/

/-- A legal state in the middle of things: digit 1 lit, a long press, the sampler enabled. -/
def midway : State :=
  { v1 with dim := 5, slot := 1, anode := 0b010, seg := 0x06, bs := 0xE1, scnt := 1, srOut := 0xA5, srIn := 0xC3,
            sample := 79, cmpIe := true, env := draw 0b01 0xA5 0 }

theorem test_inv_reset : Inv State.reset := by constructor <;> decide +kernel
theorem test_inv_midway : Inv midway := by constructor <;> decide +kernel
theorem test_inv_without_inputs : Inv (State.resetOf buttonBuild) := by constructor <;> decide +kernel

/-- AssemblerEncodesLegalLines: an illegal line, and each range at its end. -/
theorem test_witness_assembler :
    (AsmLine.setdig 16 255).wellFormed = false ∧ (AsmLine.setdig 15 255).wellFormed = true ∧
      (AsmLine.getdig 15).wellFormed = true ∧ (AsmLine.setdim 255).wellFormed = true ∧
      (AsmLine.setres 255).wellFormed = true ∧ (AsmLine.srwr 0xFFFFFFFF).wellFormed = true := by decide

/-- SetallIsThreeSetdigs. -/
theorem test_witness_setall : 255 ≤ 255 ∧ 0 ≤ 255 := by decide

/-- SameCommandExactlyWhenReadFieldsAgree: each premise on the opcode, and two different words that are one command. -/
theorem test_witness_same_command :
    fieldOp 0x2FFF = 0x2 ∧ fieldOp 0x3FFF = 0x3 ∧ fieldOp 0x4FFF = 0x4 ∧ fieldOp 0x5FFF = 0x5 ∧
      fieldOp 0x8FFF = 0x8 ∧ decode 0x31FF 0 = decode 0x3100 9 := by decide

/-- ReadByColumn: two states that differ where a TICK does not read, and two that differ where a capture does not. -/
theorem test_witness_read_by :
    (∃ t v, Agree (mayRead .tick) midway { midway with srIn := 0x11, res := 2 } ∧
      exec .tick midway = .next t ∧ exec .tick { midway with srIn := 0x11, res := 2 } = .next v) ∧
    Agree captureReads midway { midway with bs := 0 } :=
  ⟨⟨_, _, ⟨by decide, rfl, rfl⟩, rfl, rfl⟩, by decide, rfl, rfl⟩

/-- ReadsAndRepeatsChangeNothing. -/
theorem test_witness_repeats :
    Instr.ackbtn ≠ .tick ∧ (∃ t, exec .ackbtn midway = .next t) ∧ (∃ t, exec (.getdig 3) midway = .next t) ∧
      (∃ t, exec .getbtn midway = .next t) ∧ (∃ t, exec .srrd midway = .next t) ∧
      (∃ t, exec .getadc midway = .next t) :=
  ⟨by decide, ⟨_, rfl⟩, ⟨_, rfl⟩, ⟨_, rfl⟩, ⟨_, rfl⟩, ⟨_, rfl⟩⟩

/-- StepKeepsLegalStates and AtMostOneDigitLit: a legal state with one digit lit, about to tick. -/
theorem test_witness_step :
    ∃ t, Inv { midway with inbox := [⟨.command 0 0, none⟩] } ∧ AtMostOneLit midway.anode ∧
      step { midway with inbox := [⟨.command 0 0, none⟩] } = .next t := by
  refine ⟨_, by constructor <;> decide +kernel, ?_, rfl⟩
  intro j k hj hk
  have := BitVec.lt_of_getLsbD hj
  have := BitVec.lt_of_getLsbD hk
  interval_cases j <;> interval_cases k <;> revert hj hk <;> decide

/-- ResetStateIsLegal, ScaleTables: a legal build that is not the default one. -/
theorem test_witness_legal_build : buildLegal buttonBuild = true ∧ buttonBuild ≠ Config.defaultBuild := by
  decide +kernel

/-- SetdigWritesOneDigit, the clause of the next tick, at the highest digit. -/
theorem test_witness_setdig :
    ∃ t v, exec (.setdig 2 0x5B) State.reset = .next t ∧ (2#4).toNat < 3 ∧
      ({ t with slot := 3 } : State).digit = t.digit ∧ ({ t with slot := 3 } : State).slot.toNat = (2#4).toNat + 1 ∧
      exec .tick { t with slot := 3 } = .next v :=
  ⟨_, _, rfl, by decide, rfl, by decide, rfl⟩

/-- SetdimWritesLegalLevel, the clause of the next tick, at the largest level, with SLOT 0 and not. -/
theorem test_witness_setdim :
    ∃ t v w, exec (.setdim 251) State.reset = .next t ∧ t.dim.toNat ≤ 251 ∧ t.slot = 0 ∧ exec .tick t = .next v ∧
      ({ t with slot := 1 } : State).dim = t.dim ∧ exec .tick { t with slot := 1 } = .next w :=
  ⟨_, _, _, rfl, by decide, rfl, rfl, rfl, rfl⟩

/-- TickLightsDigitSlot: an arming tick, the largest level, and both cases of SLOT after the tick at their common border. -/
theorem test_witness_tick_lights :
    State.reset.slot = 0 ∧ State.reset.build.analogEn = true ∧ ({ midway with dim := 251 } : State).dim.toNat ≤ 251 ∧
      (ticked { midway with slot := 3 } (draw 0 0 0)).map (fun t => decide (t.slot.toNat < 3)) = some true ∧
      (ticked { midway with slot := 4 } (draw 0 0 0)).map (fun t => decide (3 ≤ t.slot.toNat)) = some true := by decide

/-- TickPinEvents and TickSamplesInputWord: inputs, no inputs, and no exchange at all. -/
theorem test_witness_widths :
    0 < (State.resetOf (widths 0 32)).build.srInW.val ∧ (State.resetOf (widths 8 0)).build.srInW.val = 0 ∧
      ¬((State.resetOf (widths 8 0)).build.srOutW.val = 0 ∧ (State.resetOf (widths 8 0)).build.srInW.val = 0) := by
  decide

/-- TickClocksEveryBitOnce: the lines idle. -/
theorem test_witness_idle :
    midway.srDout = true ∧ midway.srClk = false ∧ midway.srLoad = true ∧ midway.srDinOe = true := by decide

/-- LoopbackReturnsOutputWord, with `test_inv_midway`. -/
theorem test_witness_loopback :
    midway.build.srOutW = midway.build.srInW ∧ 0 < midway.build.srInW.val ∧
      ∀ k, k < midway.build.srOutW.val →
        midway.env.din.getLsbD k = midway.srOut.getLsbD (midway.build.srOutW.val - 1 - k) := by decide

/-- WrittenWordComesBackAfterTick: a word that is not its own mirror image, written over another one. -/
theorem test_witness_written_word :
    midway.build.srOutW = midway.build.srInW ∧ 0 < midway.build.srInW.val ∧
      ∃ u, runAll midway [⟨.command 0x8000 0xFC0, some (draw 0 0 0)⟩] = .next u ∧
        ∀ k, k < u.build.srOutW.val →
          (draw 0 0x03 0).din.getLsbD k = u.srOut.getLsbD (u.build.srOutW.val - 1 - k) :=
  ⟨rfl, by decide, _, rfl, by decide⟩

/-- TickCountsDownToSample: a tick that samples and one that does not, with the common line low. -/
theorem test_witness_countdown :
    midway.scnt ≠ 0 ∧ midway.scnt.toNat - 1 = 0 ∧ State.reset.scnt ≠ 0 ∧ State.reset.scnt.toNat - 1 ≠ 0 ∧
      midway.btnCom = false := by decide

/-- RefreshCycleCountsDown, with `test_inv_reset`: a whole cycle with a command and a trip between its ticks. -/
theorem test_witness_cycle :
    State.reset.slot = 0 ∧ isTick ⟨.command 0x0FFF 0, none⟩ = true ∧
      1 + tickCount [⟨.command 0x4005 0, none⟩, ⟨.command 0 0, none⟩, ⟨.trip, none⟩, ⟨.command 0 0, none⟩,
        ⟨.command 0 0, none⟩] ≤ 3 + 1 + State.reset.dim.toNat := by decide

/-- LongPressComesOnceAndNotBefore, with `test_witness_legal_build`. -/
theorem test_witness_long_press : pressOf (State.resetOf buttonBuild).bs = false ∧ (0b01 : BitVec 2) ≠ 0b00 := by decide

/-- StateChangeIsUnacknowledged: a run that changes a field, and an ACKBTN that sets ACK. -/
theorem test_witness_unacknowledged :
    (btnOf (debounce 1 State.reset).bs, pressOf (debounce 1 State.reset).bs, longOf (debounce 1 State.reset).bs) ≠
      (btnOf State.reset.bs, pressOf State.reset.bs, longOf State.reset.bs) ∧
    ∃ t, exec .ackbtn State.reset = .next t ∧ ackOf State.reset.bs = false ∧ ackOf t.bs = true :=
  ⟨by decide, _, rfl, by decide, by decide⟩

/-- DebouncerIgnoresDisplay: two states with different displays, words and samples. -/
theorem test_witness_ignores_display :
    ∃ t v, exec .tick midway = .next t ∧
      exec .tick { midway with dim := 1, slot := 0, anode := 0, srOut := 1, sample := 2 } = .next v :=
  ⟨_, _, rfl, rfl⟩

/-- SrwrKeepsLowBits, the clause of the next tick. -/
theorem test_witness_srwr :
    ∃ t v, exec (.srwr 0x3C) State.reset = .next t ∧ 0 < t.build.srOutW.val ∧ exec .tick t = .next v :=
  ⟨_, _, rfl, by decide, rfl⟩

/-- SrrdReturnsInputWord and GetadcReturnsSample: inputs without a tick, and inputs without a trip. -/
theorem test_witness_runs :
    tickCount [⟨.command 0x9000 0, none⟩, ⟨.trip, none⟩] = 0 ∧
      (∀ i ∈ ([⟨.command 0xA000 0, none⟩, ⟨.command 0 0, none⟩] : List Input), i.event ≠ .trip) := by decide

/-- SrrdWithoutInputsReturnsZero, with `test_inv_without_inputs`. -/
theorem test_witness_no_inputs : (State.resetOf buttonBuild).build.srInW.val = 0 := by decide

/-- SetresWritesLegalLevel, the clause of the next capture. -/
theorem test_witness_setres :
    ∃ t, exec (.setres 3) State.reset = .next t ∧ (armed 3 0 0).res = t.res ∧ (armed 3 0 0).cmpIe = true :=
  ⟨_, rfl, by decide, rfl⟩

/-- CaptureWritesSample: the enable set, at each of the three cases of RES. -/
theorem test_witness_capture :
    (armed 0 55 10).cmpIe = true ∧ (armed 7 0 250).cmpIe = true ∧ (armed 6 255 0).cmpIe = true := by decide

/-- TripWithoutEnableChangesNothing. -/
theorem test_witness_trip : State.reset.cmpIe = false := by decide

/-- FilterSaturatesExactly: the ends of the ranges, both sides of the saturation, and a level between. -/
theorem test_witness_filter :
    511 ≤ 511 ∧ 1024 ≤ 3 * (255 : Byte).toNat + 257 + 2 ∧ ¬1024 ≤ 3 * (255 : Byte).toNat + 256 + 2 ∧
      (6 : BitVec 3) ≠ 0 ∧ (6 : BitVec 3) ≠ 7 := by decide

/-- AbsentSamplerStaysQuiet. -/
theorem test_witness_absent :
    (State.resetOf buttonBuild).build.analogEn = false ∧ (State.resetOf buttonBuild).cmpIe = false ∧
      (State.resetOf buttonBuild).sample = 0 := by decide

/-- OneCapturePerArming: three ticks at SLOT 3. -/
theorem test_witness_one_capture :
    ({ armed 7 0 0 with cmpIe := false } : State).cmpIe = false ∧
      tickCount [⟨.command 0 0, none⟩, ⟨.trip, none⟩, ⟨.command 0 0, none⟩, ⟨.command 0 0, none⟩] ≤
        ({ armed 7 0 0 with cmpIe := false } : State).slot.toNat := by decide

/-- TickClocksEveryBitOnce: an exchange with bits in both directions. -/
theorem test_witness_exchange : ¬(midway.build.srOutW.val = 0 ∧ midway.build.srInW.val = 0) := by decide

/-- PreemptionGivesNoNewState: a capture in the middle of a clock pulse, one between the two writes that light a digit,
and an action that is no arming. -/
theorem test_witness_preemption :
    (∃ l, piecesBefore midway = [.event (.outAnode 0), .event (.out .srDout true), .event (.out .srClk true)] ++ l) ∧
      piecesAfter { midway with slot := 3 } = [.slot 2, .event (.outSeg 0x5B)] ++ [.event (.outAnode 0b100)] ∧
      Piece.slot 1 ≠ .arm :=
  ⟨⟨_, rfl⟩, by decide, by decide⟩

end Sys2Proof.Tests
end

section
/-! The encoding: decoding a word put together from its fields (30_encoding.md R71, R74), the reserved commands (R76)
and the assembler's SETALL (R81). -/

namespace Sys2Proof.Machine

/-! ### The rows of the opcode map -/

/-- What `decode` makes of every word with an opcode, in terms of the word's own fields, it makes of every `{OP, A, B}`
in terms of A and B. -/
theorem encodes_of_decode {op : BitVec 4} {f : BitVec 4 → Byte → Word → Instr}
    (h : ∀ cmd data, fieldOp cmd = op → decode cmd data = f (fieldA cmd) (fieldB cmd) data) : Encodes op f := by
  intro a b data
  have hdecode := h (op ++ a ++ b) data (fieldOp_append op a b)
  rwa [fieldA_append, fieldB_append] at hdecode

theorem encodes_tick : Encodes 0x0 (fun _ _ _ => .tick) := encodes_of_decode fun _ _ h => by simp [decode, h]

theorem encodes_clr : Encodes 0x1 (fun _ _ _ => .clr) := encodes_of_decode fun _ _ h => by simp [decode, h]

theorem encodes_setdig : Encodes 0x2 (fun a b _ => .setdig a b) := encodes_of_decode fun _ _ h => by simp [decode, h]

theorem encodes_getdig : Encodes 0x3 (fun a _ _ => .getdig a) := encodes_of_decode fun _ _ h => by simp [decode, h]

theorem encodes_setdim : Encodes 0x4 (fun _ b _ => .setdim b) := encodes_of_decode fun _ _ h => by simp [decode, h]

theorem encodes_setres : Encodes 0x5 (fun _ b _ => .setres b) := encodes_of_decode fun _ _ h => by simp [decode, h]

theorem encodes_getbtn : Encodes 0x6 (fun _ _ _ => .getbtn) := encodes_of_decode fun _ _ h => by simp [decode, h]

theorem encodes_ackbtn : Encodes 0x7 (fun _ _ _ => .ackbtn) := encodes_of_decode fun _ _ h => by simp [decode, h]

theorem encodes_srwr : Encodes 0x8 (fun _ _ d => .srwr d) := encodes_of_decode fun _ _ h => by simp [decode, h]

theorem encodes_srrd : Encodes 0x9 (fun _ _ _ => .srrd) := encodes_of_decode fun _ _ h => by simp [decode, h]

theorem encodes_getadc : Encodes 0xA (fun _ _ _ => .getadc) := encodes_of_decode fun _ _ h => by simp [decode, h]

theorem encodes_reservedB : Encodes 0xB (fun _ _ _ => .reservedB) :=
  encodes_of_decode fun _ _ h => by simp [decode, h]

theorem encodes_reservedC : Encodes 0xC (fun _ _ _ => .reservedC) :=
  encodes_of_decode fun _ _ h => by simp [decode, h]

theorem encodes_reservedD : Encodes 0xD (fun _ _ _ => .reservedD) :=
  encodes_of_decode fun _ _ h => by simp [decode, h]

theorem encodes_reservedE : Encodes 0xE (fun _ _ _ => .reservedE) :=
  encodes_of_decode fun _ _ h => by simp [decode, h]

theorem encodes_reservedF : Encodes 0xF (fun _ _ _ => .reservedF) :=
  encodes_of_decode fun _ _ h => by simp [decode, h]

/-- Settles O1: the rows of the opcode map, one lemma each. -/
theorem opcodeMap : Obligations.OpcodeMap :=
  ⟨encodes_tick, encodes_clr, encodes_setdig, encodes_getdig, encodes_setdim, encodes_setres, encodes_getbtn,
    encodes_ackbtn, encodes_srwr, encodes_srrd, encodes_getadc, encodes_reservedB, encodes_reservedC,
    encodes_reservedD, encodes_reservedE, encodes_reservedF⟩

/-! ### SETALL -/

/-- The assembler encodes the expansion of a legal line (R80). -/
theorem assemble_of_wellFormed {l : AsmLine} (h : l.wellFormed = true) : assemble l = .ok ((expand l).map encode) :=
  if_pos h

theorem assemble_setdig {pos pattern : Nat} (hpos : pos ≤ 15) (hpattern : pattern ≤ 255) :
    assemble (.setdig pos pattern) = .ok [encode (.setdig (BitVec.ofNat 4 pos) (BitVec.ofNat 8 pattern))] :=
  assemble_of_wellFormed (by simp [AsmLine.wellFormed, posOk, byteOk, hpos, hpattern])

theorem assemble_setall {p2 p1 p0 : Nat} (h2 : p2 ≤ 255) (h1 : p1 ≤ 255) (h0 : p0 ≤ 255) :
    assemble (.setall p2 p1 p0) =
      .ok [encode (.setdig 2 (BitVec.ofNat 8 p2)), encode (.setdig 1 (BitVec.ofNat 8 p1)),
        encode (.setdig 0 (BitVec.ofNat 8 p0))] :=
  assemble_of_wellFormed (by simp [AsmLine.wellFormed, byteOk, h2, h1, h0])

/-- Settles O6: SETALL and the three SETDIGs are assembled from the same three commands. -/
theorem setallIsThreeSetdigs : Obligations.SetallIsThreeSetdigs := fun _ _ _ h2 h1 h0 =>
  ⟨_, _, _, assemble_setdig (by decide) h2, assemble_setdig (by decide) h1, assemble_setdig (by decide) h0,
    assemble_setall h2 h1 h0⟩

/-! ### The reserved commands -/

/-- A command that completes in `t` has an empty trace and its result, and keeps what `t` keeps. -/
theorem answers_complete {s t : State} {ws : List Reg} {v : Word} {p : State → Prop} (hkeeps : Keeps ws s t)
    (hp : p (t.begin.reply v)) : Answers (t.complete v) s ws v p :=
  ⟨t.begin.reply v, rfl, rfl, rfl, hkeeps.trans (keeps_begin_reply ws t v), hp⟩

/-- The effect shared by the reserved opcodes: no register is written (R76). -/
theorem answers_reservedCommand (s : State) : Answers (reservedCommand s) s [] 0 (fun _ => True) :=
  answers_complete (Keeps.refl [] s) trivial

/-- Settles O15: the five rows of the opcode map, and the one effect the five commands share. -/
theorem reservedCommandsDoNothing : Obligations.ReservedCommandsDoNothing :=
  ⟨⟨encodes_reservedB, encodes_reservedC, encodes_reservedD, encodes_reservedE, encodes_reservedF⟩,
    fun s => ⟨answers_reservedCommand s, answers_reservedCommand s, answers_reservedCommand s,
      answers_reservedCommand s, answers_reservedCommand s⟩⟩

end Sys2Proof.Machine
end

section
/-! The button debouncer: when a tick runs it (40_buttons.md R90), what a run makes of the fields of BS and of LCNT
(R92 to R97), and the commands GETBTN and ACKBTN (R98, R99). -/

namespace Sys2Proof.Machine

/-! ### The countdown to a sample -/

/-- The tick's test that SCNT is 1 is the rule's test that its decrement is 0 (R90). -/
theorem toNat_sub_one_eq_zero_iff {x : Byte} (hx : x ≠ 0) : x.toNat - 1 = 0 ↔ x = 1 := by
  constructor <;> intro h <;> bv_omega

/-- Settles O26: the tick's own laws, with the test for the end of the interval put in the rule's form. -/
theorem tickCountsDownToSample : Obligations.TickCountsDownToSample := by
  intro s hs
  have hdec : (s.scnt - 1).toNat = s.scnt.toNat - 1 := by bv_omega
  refine ⟨(tick s).reply 0, rfl, ?_⟩
  simp only [toNat_sub_one_eq_zero_iff hs, State.reply_scnt, State.reply_bs, State.reply_lcnt, State.reply_btnCom]
  refine ⟨?_, tick_bs s, tick_lcnt s, fun hlow => ?_⟩
  · rw [tick_scnt, apply_ite BitVec.toNat, hdec]
  · rw [tick_btnCom, hlow, ite_self]

/-! ### The cases of a debouncer run -/

/-- What a debouncer run leaves in BTN, PRESS, LONG, ACK and LCNT. -/
def buttonFields (s : State) : BitVec 2 × Bool × Bool × Bool × Byte :=
  (btnOf s.bs, pressOf s.bs, longOf s.bs, ackOf s.bs, s.lcnt)

/-- RELEASE (R93). -/
theorem buttonFields_release (s : State) :
    buttonFields (release s) =
      if longOf s.bs = true ∧ ackOf s.bs = true then (btnOf s.bs, false, true, false, s.lcnt)
      else (btnOf s.bs, false, false, false, s.lcnt) := by
  split
  · next h => simp [release_long h.1 h.2, buttonFields, h.1]
  · next h => simp [release_short h, buttonFields]

/-- PRESS_START (R94). -/
theorem buttonFields_pressStart (r : BitVec 2) (s : State) :
    buttonFields (pressStart r s) = (r, true, false, false, s.build.longSamples) := by
  simp [pressStart, buttonFields]

/-- BOTH_EVENT (R95). -/
theorem buttonFields_bothEvent (s : State) :
    buttonFields (bothEvent s) = (0b11, pressOf s.bs, longOf s.bs, false, s.build.longSamples) := by
  simp [bothEvent, buttonFields]

/-- HELD (R96). -/
theorem buttonFields_held (s : State) :
    buttonFields (held s) =
      if longOf s.bs = true then buttonFields s
      else if s.lcnt - 1 = 0 then (btnOf s.bs, pressOf s.bs, true, false, 0)
      else (btnOf s.bs, pressOf s.bs, false, ackOf s.bs, s.lcnt - 1) := by
  split
  · next hl => rw [held_long hl]
  · next hl =>
    have hl : longOf s.bs = false := by simpa using hl
    split
    · next hc => simp [held_last hl hc, buttonFields]
    · next hc => simp [held_counts hl hc, buttonFields, hl]

/-- No case of a debouncer run writes the reserved bits 4:2 of BS (10_state.md R26). -/
theorem reservedOf_debounce (r : BitVec 2) (s : State) : reservedOf (debounce r s).bs = reservedOf s.bs := by
  unfold debounce release pressStart bothEvent held
  dsimp only
  split_ifs <;> simp

/-- Settles O32: the cases of `debounce` in their order, each with the lemma about what it writes. -/
theorem debouncerCases : Obligations.DebouncerCases := by
  intro r s
  refine ⟨?_, reservedOf_debounce r s, debounce_rdata r s, debounce_trace r s, keeps_debounce r s⟩
  change buttonFields (debounce r s) = _
  unfold debounce
  split
  · split
    · exact buttonFields_release s
    · rfl
  split
  · exact buttonFields_pressStart r s
  split
  · exact buttonFields_bothEvent s
  split
  · exact buttonFields_held s
  · rfl

/-! ### GETBTN and ACKBTN -/

/-- The reserved bits of BS stand at the same place in its zero-extension. -/
theorem extractLsb'_zext32_reserved (v : Byte) : (zext32 v).extractLsb' 2 3 = reservedOf v := by
  ext i hi
  have hbit : 2 + i < 32 := by omega
  simp [zext32, reservedOf, hbit]

/-- Settles O30: the answer is `zext32 BS`, with nothing written; its reserved bits are 0 where those of BS are. -/
theorem getbtnReturnsButtonState : Obligations.GetbtnReturnsButtonState := by
  refine ⟨encodes_getbtn, fun s => ⟨zext32 s.bs, answers_complete (Keeps.refl [] s) trivial, ?_, ?_, ?_⟩⟩
  · exact BitVec.toNat_setWidth_of_le (by decide)
  · intro k hk
    simp [zext32, BitVec.getLsbD_of_ge s.bs k hk]
  · intro hinv
    rw [extractLsb'_zext32_reserved, hinv.reserved]

/-- Every bit of BS after `ACK <- 1`. -/
theorem getLsbD_withAck_true (bs : Byte) {k : Nat} (hk : k < 8) :
    (withAck bs true).getLsbD k = (decide (k = 7) || bs.getLsbD k) := by
  interval_cases k <;> simp [withAck]

/-- Settles O31: ACKBTN writes BS alone, and in it bit 7 alone. -/
theorem ackbtnSetsAck : Obligations.AckbtnSetsAck :=
  ⟨encodes_ackbtn, fun s => answers_complete (keeps_setBs s _) fun _ hk => getLsbD_withAck_true s.bs hk⟩

end Sys2Proof.Machine
end

section
/-! The shift-register engine: the pin events of a tick (41_shiftreg.md R110 to R113), the input word it samples (R114),
and the commands SRWR and SRRD (R116, R117). -/

namespace Sys2Proof.Machine

/-! ### The exchange in a tick's trace -/

/-- The trace that TICK leaves (43_display.md R150). -/
theorem effect_tick_trace (s : State) :
    (effect .tick s).trace =
      .outAnode 0 :: exchangeEvents s.build s.srOut ++ countdownEvents s ++ senseEvents s ++ lightEvents s := by
  rw [effect_tick, State.reply_trace, tick_trace]

/-- The exchange's events stand together in the trace that TICK leaves. -/
theorem exchangeEvents_infix_effect_tick_trace (s : State) :
    exchangeEvents s.build s.srOut <:+: (effect .tick s).trace :=
  ⟨[.outAnode 0], countdownEvents s ++ senseEvents s ++ lightEvents s, by simp [effect_tick_trace]⟩

/-- The output phase stands together in the events of an exchange with outputs (R111). -/
theorem outputEvents_infix_exchangeEvents {b : Build} (h : 0 < b.srOutW.val) (w : Word) :
    outputEvents w b.srOutW.val <:+: exchangeEvents b w := by
  rw [exchangeEvents, if_neg fun h0 => h.ne' h0.1, List.append_assoc]
  exact (List.prefix_append _ _).isInfix

/-- The input phase stands together in the events of an exchange with inputs (R114). -/
theorem inputEvents_infix_exchangeEvents {b : Build} (h : 0 < b.srInW.val) (w : Word) :
    .out .srDinOe false :: pulsesEvents b.srInW.val ++ [.out .srDinOe true] <:+: exchangeEvents b w := by
  rw [exchangeEvents, if_neg fun h0 => h.ne' h0.2, if_neg h.ne']
  exact (List.suffix_append _ _).isInfix

/-- The events of step 6 carry what TICK leaves in SEG and ANODE (43_display.md R155). -/
theorem lightEvents_eq (s : State) :
    lightEvents s =
      if (effect .tick s).slot.toNat < 3 then [.outSeg (effect .tick s).seg, .outAnode (effect .tick s).anode]
      else [] := by
  have hslot : (effect .tick s).slot = nextSlot s := by rw [effect_tick, State.reply_slot, tick_slot]
  rw [hslot]
  by_cases h : (nextSlot s).toNat < digitCount
  · simp [lightEvents, effect_tick, h]
  · simp [lightEvents, h]

/-- Settles O21: the trace of the tick's six steps, with the events of step 6 in terms of the state the tick leaves. -/
theorem tickPinEvents : Obligations.TickPinEvents := by
  refine fun s => ⟨effect .tick s, exec_eq_effect .tick s, ?_, fun hwidth => ?_, fun hin => ?_⟩
  · rw [effect_tick_trace, lightEvents_eq]
    rfl
  · rw [effect_tick, State.reply_srDout, State.reply_srLoad, tick_srDout, tick_srLoad, if_neg hwidth, if_neg hwidth]
    exact ⟨rfl, rfl⟩
  · rw [effect_tick, State.reply_srIn, State.reply_srDinOe, tick_srIn, tick_srDinOe, if_pos hin, if_pos hin]
    exact ⟨rfl, rfl⟩

/-- Settles O22: SR_IN is the running word of the samples, and the input phase is a part of the exchange. -/
theorem tickSamplesInputWord : Obligations.TickSamplesInputWord := by
  intro s hin
  refine ⟨effect .tick s, exec_eq_effect .tick s, ?_, fun k => ?_, ?_, ?_⟩
  · rw [effect_tick, State.reply_srOut, tick_srOut]
  · rw [effect_tick, State.reply_srIn, tick_srIn, if_neg hin.ne', sampledWord_getLsbD _ (by omega)]
  · exact (inputEvents_infix_exchangeEvents hin s.srOut).trans (exchangeEvents_infix_effect_tick_trace s)
  · rw [effect_tick, State.reply_srDinOe, tick_srDinOe, if_neg hin.ne']

/-! ### SRWR -/

/-- The word SRWR writes (R116): the bits of DATA below the width, and 0 from there on. -/
theorem getLsbD_and_mask (data : Word) {w : Nat} (hw : w ≤ 32) (k : Nat) :
    (data &&& mask w).getLsbD k = (decide (k < w) && data.getLsbD k) := by
  rw [BitVec.getLsbD_and, mask_getLsbD hw, Bool.and_comm]

/-- Settles O37: SRWR writes SR_OUT alone, with the masked word, and a tick's output phase is a part of its exchange. -/
theorem srwrKeepsLowBits : Obligations.SrwrKeepsLowBits := by
  refine ⟨encodes_srwr, fun data s => answers_complete (keeps_setSrOut s _)
    ⟨getLsbD_and_mask data (by omega), fun u v hout _ hwidth htick => ?_⟩⟩
  obtain rfl := exec_next_iff.mp htick
  rw [← hout]
  exact (outputEvents_infix_exchangeEvents hwidth u.srOut).trans (exchangeEvents_infix_effect_tick_trace u)

/-! ### SRRD -/

/-- Of the inputs only a tick writes SR_IN (10_state.md R41). -/
theorem eventEffect_srIn {i : Input} (hi : isTick i = false) (s : State) :
    (eventEffect i.event s).srIn = s.srIn := by
  obtain ⟨htick, -⟩ | ⟨-, j, hj, heq⟩ | ⟨-, heq⟩ := eventEffect_cases i s
  · simp [hi] at htick
  · obtain ⟨-, -, -, -, -, hsrIn, -⟩ := effect_of_ne_tick hj s
    rw [heq, hsrIn]
  · rw [heq, comparatorTrip_eq]
    split <;> rfl

/-- A run without a tick keeps SR_IN. -/
theorem runState_srIn {ins : List Input} (h : tickCount ins = 0) (s : State) : (runState s ins).srIn = s.srIn := by
  induction ins generalizing s with
  | nil => rfl
  | cons i rest ih =>
    rw [tickCount_cons, Nat.add_eq_zero_iff] at h
    obtain ⟨hhead, hrest⟩ := h
    have hi : isTick i = false := by simpa using hhead
    rw [runState_cons, ih hrest, eventEffect_srIn hi, State.accept_srIn]

/-- Settles O38: the answer is SR_IN with nothing written, and a run without a tick keeps SR_IN. -/
theorem srrdReturnsInputWord : Obligations.SrrdReturnsInputWord :=
  ⟨encodes_srrd, fun s => answers_complete (Keeps.refl [] s) trivial,
    fun s ins h => ⟨runState s ins, runAll_eq s ins, runState_srIn h s⟩, fun _ => rfl⟩

end Sys2Proof.Machine
end

section
/-! The analog sampler: arming and discharge (42_analog.md R131, R132), the scale (R137) and the filter (R139), the
capture (R134, R138, R140), a block built without it (R133), and the commands SETRES and GETADC (R135, R136). -/

namespace Sys2Proof.Machine

/-! ### Arming and discharge -/

/-- Settles O27: the tick's own laws for the sampler's registers, in each of the three cases. -/
theorem tickArmsOrDischarges : Obligations.TickArmsOrDischarges := by
  refine fun s => ⟨effect .tick s, exec_eq_effect .tick s, ?_, ?_, ?_⟩
  · rw [effect_tick, State.reply_sample, tick_sample]
  · rw [effect_tick, State.reply_res, tick_res]
  · rw [effect_tick, State.reply_t0, State.reply_cmpIe, State.reply_senseDrv, tick_t0, tick_cmpIe, tick_senseDrv]
    by_cases hbuilt : s.build.analogEn = true
    · by_cases hslot : s.slot = 0#8
      · simp [hbuilt, hslot]
      · simp [hbuilt, hslot]
    · simp [hbuilt]

/-! ### The scale: the default table level by level (R137, D25), and the range of a legal one -/

theorem pScale_default_6 (raw : Byte) : pScale Config.defaultBuild 6 raw = raw.toNat + raw.toNat / 2 := rfl

theorem pScale_default_5 (raw : Byte) : pScale Config.defaultBuild 5 raw = raw.toNat := rfl

theorem pScale_default_4 (raw : Byte) : pScale Config.defaultBuild 4 raw = raw.toNat / 2 + raw.toNat / 4 := rfl

theorem pScale_default_3 (raw : Byte) : pScale Config.defaultBuild 3 raw = raw.toNat / 2 := rfl

theorem pScale_default_2 (raw : Byte) : pScale Config.defaultBuild 2 raw = raw.toNat / 4 + raw.toNat / 8 := rfl

theorem pScale_default_1 (raw : Byte) : pScale Config.defaultBuild 1 raw = raw.toNat / 4 := rfl

/-- Every level looks up one of the table's six scale functions. -/
theorem detent_mem (t : ScaleTable) (level : BitVec 3) :
    detent t level ∈ [t.level1, t.level2, t.level3, t.level4, t.level5, t.level6] := by
  unfold detent
  split <;> simp

/-- Every scale function of a legal build is legal (R8). -/
theorem scaleLegal_of_mem {b : Build} (h : buildLegal b = true) {e : Scale}
    (he : e ∈ [b.scale.level1, b.scale.level2, b.scale.level3, b.scale.level4, b.scale.level5, b.scale.level6]) :
    scaleLegal e = true := by
  simp only [buildLegal, Bool.and_eq_true] at h
  obtain ⟨⟨⟨⟨⟨⟨-, h1⟩, h2⟩, h3⟩, h4⟩, h5⟩, h6⟩ := h
  simp only [List.mem_cons, List.not_mem_nil, or_false] at he
  obtain rfl | rfl | rfl | rfl | rfl | rfl := he <;> assumption

theorem scaleEval_le_of_scaleLegal {e : Scale} (h : scaleLegal e = true) (raw : Byte) : scaleEval raw.toNat e ≤ 511 :=
  of_decide_eq_true (List.all_eq_true.mp h raw.toNat (List.mem_range.mpr raw.isLt))

/-- Settles O45: the default table level by level, and the range from the legality of the one expression looked up. -/
theorem scaleTables : Obligations.ScaleTables :=
  ⟨fun raw => ⟨pScale_default_6 raw, pScale_default_5 raw, pScale_default_4 raw, pScale_default_3 raw,
      pScale_default_2 raw, pScale_default_1 raw⟩,
    fun b level raw h => scaleEval_le_of_scaleLegal (scaleLegal_of_mem h (detent_mem b.scale level)) raw⟩

/-! ### The filter -/

/-- The filter's value always fits the register (R139). -/
theorem filter_toNat (old : Byte) (x : Nat) : (filter old x).toNat = min 255 ((3 * old.toNat + x + 2) / 4) := by
  rw [filter, BitVec.toNat_ofNat]
  exact Nat.mod_eq_of_lt (by omega)

/-- Below level 6 the default scale does not enlarge the elapsed value (R137). -/
theorem pScale_default_le {level : BitVec 3} (raw : Byte) (h0 : level ≠ 0) (h7 : level ≠ 7) (h6 : level ≠ 6) :
    pScale Config.defaultBuild level raw ≤ raw.toNat := by
  have hlevel : level = 1 ∨ level = 2 ∨ level = 3 ∨ level = 4 ∨ level = 5 := by
    revert level; decide
  obtain rfl | rfl | rfl | rfl | rfl := hlevel
  · rw [pScale_default_1]; omega
  · rw [pScale_default_2]; omega
  · rw [pScale_default_3]; omega
  · rw [pScale_default_4]; omega
  · rw [pScale_default_5]

/-- The default scale reaches 257, which the filter needs to saturate, at level 6 only (R137, R139). -/
theorem pScale_default_saturates_iff {level : BitVec 3} (raw : Byte) (h0 : level ≠ 0) (h7 : level ≠ 7) :
    257 ≤ pScale Config.defaultBuild level raw ↔ level = 6 ∧ 172 ≤ raw.toNat := by
  by_cases h6 : level = 6
  · rw [h6, pScale_default_6]
    simp only [true_and]
    omega
  · have hle := pScale_default_le raw h0 h7 h6
    have hraw : raw.toNat < 256 := raw.isLt
    simp only [h6, false_and, iff_false]
    omega

/-- Settles O44: arithmetic on the filter's value, and the default table for the levels that saturate. -/
theorem filterSaturatesExactly : Obligations.FilterSaturatesExactly := by
  refine ⟨fun old x _ => ?_, fun old x h => ?_, fun old => BitVec.eq_of_toNat_eq ?_,
    fun level raw h0 h7 => pScale_default_saturates_iff raw h0 h7⟩
  · rw [filter_toNat]
    split <;> omega
  · have hold : old.toNat < 256 := old.isLt
    omega
  · have hold : old.toNat < 256 := old.isLt
    rw [filter_toNat]
    omega

/-! ### The capture -/

theorem elapsed_toNat (t1 t0 : Byte) : (elapsed t1 t0).toNat = (t1.toNat + 256 - t0.toNat) % 256 := by
  rw [elapsed, BitVec.toNat_sub]
  omega

/-- SAMPLE after a capture, as a number (R134, R139). -/
theorem sampleAfter_toNat (b : Build) (res : BitVec 3) (old raw : Byte) :
    (sampleAfter b res old raw).toNat =
      if res = 0 then 0
      else if res = 7 then raw.toNat
      else min 255 ((3 * old.toNat + pScale b res raw + 2) / 4) := by
  simp only [sampleAfter, apply_ite BitVec.toNat, filter_toNat]
  rfl

/-- A trip with CMP_IE = 1 is a capture (R141). -/
theorem comparatorTrip_of_enabled {s : State} (h : s.cmpIe = true) : comparatorTrip s = capture s := if_pos h

theorem comparatorTrip_of_disabled {s : State} (h : s.cmpIe = false) : comparatorTrip s = s := by
  rw [comparatorTrip_eq, h]
  rfl

/-- A capture selects SAMPLE by the RES it finds (R134, R135). -/
theorem comparatorTrip_sample {s : State} {res : BitVec 3} (hres : s.res = res) (hie : s.cmpIe = true) :
    (comparatorTrip s).sample = sampleAfter s.build res s.sample (elapsed s.env.timer s.t0) := by
  rw [comparatorTrip_of_enabled hie, ← hres]
  rfl

/-- Settles O42: the step is a capture from the state that took the trip's draws. -/
theorem captureWritesSample : Obligations.CaptureWritesSample := by
  intro s d rest hie
  have hcapture : comparatorTrip (s.accept (some d) rest) = capture (s.accept (some d) rest) :=
    comparatorTrip_of_enabled hie
  refine ⟨capture (s.accept (some d) rest), ?_, rfl, ?_, rfl, rfl, ?_⟩
  · rw [← hcapture]
    exact step_cons s ⟨.trip, some d⟩ rest
  · intro raw
    have hraw : raw = (elapsed d.timer s.t0).toNat := (elapsed_toNat d.timer s.t0).symm
    rw [hraw, BitVec.ofNat_toNat, BitVec.setWidth_eq]
    exact sampleAfter_toNat s.build s.res s.sample (elapsed d.timer s.t0)
  · rw [← hcapture]
    exact keeps_comparatorTrip _

/-! ### SETRES -/

/-- A level up to 7 fits RES (R135). -/
theorem toNat_extractLsb'_of_le_seven {b : Byte} (h : b.toNat ≤ 7) : (b.extractLsb' 0 3).toNat = b.toNat := by
  rw [BitVec.extractLsb'_toNat, Nat.shiftRight_zero]
  omega

/-- Settles O40: RES is written or nothing is; a later capture reads the RES it finds. -/
theorem setresWritesLegalLevel : Obligations.SetresWritesLegalLevel := by
  refine ⟨encodes_setres, fun b s => ?_⟩
  have hlegal : (s.build.analogEn && resLegal b) = true ↔ s.build.analogEn = true ∧ b.toNat ≤ 7 := by
    simp [resLegal]
  change Answers (execSetres b s) s [.res] 0 _
  unfold execSetres
  split
  · next h =>
    rw [hlegal] at h
    refine answers_complete (keeps_setRes s _) ⟨?_, fun _ => comparatorTrip_sample⟩
    rw [if_pos h]
    exact toNat_extractLsb'_of_le_seven h.2
  · next h =>
    rw [hlegal] at h
    refine answers_complete (Keeps.refl _ s) ⟨?_, fun _ => comparatorTrip_sample⟩
    rw [if_neg h, State.reply_res, State.begin_res]

/-! ### GETADC -/

/-- GETADC completes with SAMPLE, or 0 where the sampler is not built in (R136). -/
theorem exec_getadc (s : State) :
    exec .getadc s = s.complete (if s.build.analogEn = true then zext32 s.sample else 0) :=
  (apply_ite s.complete _ _ _).symm

theorem answers_getadc (s : State) :
    Answers (exec .getadc s) s [] (if s.build.analogEn = true then zext32 s.sample else 0) (fun _ => True) := by
  rw [exec_getadc]
  exact answers_complete (Keeps.refl [] s) trivial

/-- No command writes SAMPLE (10_state.md R41). -/
theorem effect_sample (i : Instr) (s : State) : (effect i s).sample = s.sample := by
  by_cases h : i = .tick
  · rw [h, effect_tick, State.reply_sample, tick_sample]
  · obtain ⟨-, -, -, -, -, -, -, -, hsample, -⟩ := effect_of_ne_tick h s
    exact hsample

/-- A run without a trip keeps SAMPLE. -/
theorem runState_sample {ins : List Input} (h : ∀ i ∈ ins, i.event ≠ .trip) (s : State) :
    (runState s ins).sample = s.sample := by
  induction ins generalizing s with
  | nil => rfl
  | cons i rest ih =>
    obtain ⟨hi, hrest⟩ := List.forall_mem_cons.mp h
    rw [runState_cons, ih hrest]
    cases hevent : i.event with
    | trip => exact absurd hevent hi
    | command cmd data => rw [eventEffect, effect_sample, State.accept_sample]

/-- Settles O41: the answer is SAMPLE with nothing written, and only a trip writes SAMPLE. -/
theorem getadcReturnsSample : Obligations.GetadcReturnsSample := by
  refine ⟨encodes_getadc, fun s => ⟨_, answers_getadc s, ?_⟩,
    fun s ins h => ⟨runState s ins, runAll_eq s ins, runState_sample h s⟩, fun _ => rfl⟩
  rw [apply_ite BitVec.toNat, zext32, BitVec.toNat_setWidth_of_le (by decide)]
  rfl

/-! ### A block without the sampler -/

/-- What holds of a block built without the sampler as long as it runs (R133): no capture is enabled, and the sampler's
registers and line are as they were. -/
structure SamplerAbsent (res : BitVec 3) (sense : Bool) (s : State) : Prop where
  analogEn : s.build.analogEn = false
  cmpIe : s.cmpIe = false
  sample : s.sample = 0
  res : s.res = res
  senseDrv : s.senseDrv = sense

/-- Without the sampler no command writes RES (R133). -/
theorem effect_res_of_absent (i : Instr) {s : State} (h : s.build.analogEn = false) : (effect i s).res = s.res := by
  cases i
  case setres b => simp [effect_setres, h]
  case tick => rw [effect_tick, State.reply_res, tick_res]
  case getadc => rw [effect_getadc, State.reply_res, State.begin_res]
  case setdig a b => by_cases ha : a.toNat < digitCount <;> simp [effect_setdig, State.writeDigit, ha]
  case setdim b => rw [effect_setdim]; split_ifs <;> simp
  all_goals rfl

theorem SamplerAbsent.after_effect {res : BitVec 3} {sense : Bool} {s : State} (h : SamplerAbsent res sense s)
    (i : Instr) : SamplerAbsent res sense (effect i s) := by
  obtain ⟨hbuilt, hie, hsample, hres, hsense⟩ := h
  obtain ⟨-, hbuild, -⟩ := effect_inputs i s
  have hres' := effect_res_of_absent i hbuilt
  have hquiet : (effect i s).cmpIe = s.cmpIe ∧ (effect i s).senseDrv = s.senseDrv := by
    by_cases hi : i = .tick
    · simp [hi, effect_tick, hbuilt]
    · obtain ⟨-, -, -, -, -, -, -, hie', -, hsense'⟩ := effect_of_ne_tick hi s
      exact ⟨hie', hsense'⟩
  obtain ⟨hie', hsense'⟩ := hquiet
  exact ⟨hbuild ▸ hbuilt, hie'.trans hie, (effect_sample i s).trans hsample, hres'.trans hres,
    hsense'.trans hsense⟩

theorem SamplerAbsent.after_event {res : BitVec 3} {sense : Bool} {s : State} (h : SamplerAbsent res sense s)
    (e : Event) : SamplerAbsent res sense (eventEffect e s) := by
  cases e with
  | command cmd data => exact h.after_effect _
  | trip =>
    change SamplerAbsent res sense (comparatorTrip s)
    rwa [comparatorTrip_of_disabled h.cmpIe]

theorem SamplerAbsent.after_accept {res : BitVec 3} {sense : Bool} {s : State} (h : SamplerAbsent res sense s)
    (d : Option Draws) (rest : List Input) : SamplerAbsent res sense (s.accept d rest) := by
  obtain ⟨hbuilt, hie, hsample, hres, hsense⟩ := h
  constructor <;> simpa

theorem SamplerAbsent.after_run {res : BitVec 3} {sense : Bool} {s : State} (h : SamplerAbsent res sense s)
    (ins : List Input) : SamplerAbsent res sense (runState s ins) :=
  runState_keeps (fun _ d rest hs => hs.after_accept d rest)
    (fun _ hs => ⟨hs.analogEn, hs.cmpIe, hs.sample, hs.res, hs.senseDrv⟩) (fun e _ hs => hs.after_event e) ins s h

/-- Settles O46: what holds of an absent sampler holds after every run, and GETADC then answers 0. -/
theorem absentSamplerStaysQuiet : Obligations.AbsentSamplerStaysQuiet := by
  intro s ins hbuilt hie hsample
  have hstart : SamplerAbsent s.res s.senseDrv s := ⟨hbuilt, hie, hsample, rfl, rfl⟩
  obtain ⟨hbuilt', hie', hsample', hres', hsense'⟩ := hstart.after_run ins
  refine ⟨runState s ins, runAll_eq s ins, hie', hsample', hres', hsense', ?_⟩
  have hanswer := answers_getadc (runState s ins)
  rwa [hbuilt'] at hanswer

end Sys2Proof.Machine
end

section
/-! The display: the slot and the digit of a tick (43_display.md R153 to R155), and the commands CLR, SETDIG, GETDIG and
SETDIM (R159 to R162). -/

namespace Sys2Proof.Machine

/-! ### The digit of a tick -/

theorem effect_tick_slot (s : State) : (effect .tick s).slot = nextSlot s := by
  rw [effect_tick, State.reply_slot, tick_slot]

/-- A tick leaves SLOT re-seeded or counted down, without a wrap (R153, R154). -/
theorem effect_tick_slot_toNat {s : State} (hdim : s.dim.toNat ≤ 251) :
    (effect .tick s).slot.toNat = if s.slot = 0 then 3 + s.dim.toNat else s.slot.toNat - 1 := by
  rw [effect_tick_slot]
  split
  · next h => exact nextSlot_of_zero h hdim
  · next h => exact nextSlot_of_ne_zero h

/-- A tick that leaves SLOT at a digit lights that digit, and its trace ends with SEG and then ANODE (R155). -/
theorem effect_tick_lights {s : State} {k : Nat} (hk : k < digitCount) (hslot : (effect .tick s).slot.toNat = k) :
    (effect .tick s).seg = s.digit[k] ∧ (effect .tick s).anode = 1#3 <<< k ∧
      [.outSeg (effect .tick s).seg, .outAnode (effect .tick s).anode] <:+ (effect .tick s).trace := by
  have hlight := lightEvents_eq s
  rw [hslot, if_pos hk] at hlight
  rw [effect_tick_slot] at hslot
  subst hslot
  refine ⟨?_, ?_, ?_⟩
  · rw [effect_tick, State.reply_seg, tick_seg, dif_pos hk]
  · rw [effect_tick, State.reply_anode, tick_anode, if_pos hk]
  · rw [effect_tick_trace, hlight]
    exact List.suffix_append _ _

/-- A tick that leaves SLOT above the digits is dark and keeps SEG (R155, D10). -/
theorem effect_tick_dark {s : State} (h : digitCount ≤ (effect .tick s).slot.toNat) :
    (effect .tick s).seg = s.seg ∧ (effect .tick s).anode = 0 := by
  rw [effect_tick_slot] at h
  rw [effect_tick, State.reply_seg, State.reply_anode, tick_seg, tick_anode, dif_neg h.not_gt, if_neg h.not_gt]
  exact ⟨rfl, rfl⟩

/-- An arming tick records the timer, enables the capture and releases the sense pin (42_analog.md R131). -/
theorem effect_tick_arms {s : State} (hslot : s.slot = 0) (hbuilt : s.build.analogEn = true) :
    (effect .tick s).t0 = s.env.timer ∧ (effect .tick s).cmpIe = true ∧ (effect .tick s).senseDrv = false := by
  simp [effect_tick, hslot, hbuilt]

/-- Settles O20: what a tick leaves in SLOT decides between its two displays, a lit digit and a dark one. -/
theorem tickLightsDigitSlot : Obligations.TickLightsDigitSlot := by
  intro s hdim
  refine ⟨effect .tick s, exec_eq_effect .tick s, ?_, ?_, ?_, effect_tick_arms, ?_,
    fun h => effect_tick_lights h rfl, effect_tick_dark⟩
  · rw [effect_tick, State.reply_rdata]
  · rw [effect_tick, State.reply_digit, tick_digit]
  · rw [effect_tick, State.reply_dim, tick_dim]
  · rw [effect_tick_slot_toNat hdim]
    split <;> omega

/-! ### CLR -/

/-- Settles O16: CLR writes the digits alone, each with the blank pattern. -/
theorem clrBlanksEveryDigit : Obligations.ClrBlanksEveryDigit :=
  ⟨encodes_clr, fun s => answers_complete (keeps_setDigits s _) fun k => Vector.getElem_replicate k.isLt⟩

/-! ### SETDIG -/

/-- The digit a position names is written, and no other (R160). -/
theorem writeDigit_getElem (s : State) (a : BitVec 4) (v : Byte) (k : Fin digitCount) :
    (s.writeDigit a v).digit[k] = if k.val = a.toNat then v else s.digit[k] := by
  unfold State.writeDigit
  split
  · next ha => simp [Vector.getElem_set, eq_comm]
  · next ha => rw [if_neg fun h : k.val = a.toNat => ha (h ▸ k.isLt)]

/-- SETDIG writes the three digits at most, whatever its position. -/
theorem keeps_writeDigit_digits (s : State) (a : BitVec 4) (v : Byte) :
    Keeps [.digit 0, .digit 1, .digit 2] s (s.writeDigit a v) := by
  unfold State.writeDigit
  split
  · exact keeps_setDigits s _
  · exact Keeps.refl _ s

/-- Settles O17: SETDIG writes one digit, and the tick that counts SLOT down to its position drives that digit. -/
theorem setdigWritesOneDigit : Obligations.SetdigWritesOneDigit := by
  refine ⟨encodes_setdig, fun a b s => answers_complete (keeps_writeDigit_digits s a b)
    ⟨writeDigit_getElem s a b, fun ha u v hdigit hslot htick => ?_⟩⟩
  obtain rfl := exec_next_iff.mp htick
  have hne : u.slot ≠ 0 := fun h0 => by simp [h0] at hslot
  have hnext : (effect .tick u).slot.toNat = a.toNat := by
    rw [effect_tick_slot, nextSlot_of_ne_zero hne, hslot, Nat.add_sub_cancel]
  obtain ⟨hseg, hanode, -⟩ := effect_tick_lights ha hnext
  have hwritten : u.digit[a.toNat] = b := by
    simpa [hdigit] using writeDigit_getElem s a b ⟨a.toNat, ha⟩
  exact ⟨hseg.trans hwritten, hanode⟩

/-! ### GETDIG -/

/-- Settles O18: the answer is the zero-extended digit, or 0 past the last one, with nothing written. -/
theorem getdigReturnsDigit : Obligations.GetdigReturnsDigit := by
  refine ⟨encodes_getdig, fun a s => ⟨zext32 (s.readDigit a), answers_complete (Keeps.refl [] s) trivial, ?_⟩⟩
  rw [zext32, BitVec.toNat_setWidth_of_le (by decide), State.readDigit, apply_dite BitVec.toNat]
  rfl

/-! ### SETDIM -/

/-- The tick's law for SLOT with the level `d` it finds in DIM: only a re-seed reads it (R153). -/
theorem exec_tick_slot_toNat {d : Byte} {u v : State} (hd : d.toNat ≤ 251) (hdim : u.dim = d)
    (htick : exec .tick u = .next v) :
    v.slot.toNat = if u.slot = 0 then 3 + d.toNat else u.slot.toNat - 1 := by
  obtain rfl := exec_next_iff.mp htick
  subst hdim
  exact effect_tick_slot_toNat hd

/-- Settles O19: DIM is written or nothing is; a later tick re-seeds with the DIM it finds. -/
theorem setdimWritesLegalLevel : Obligations.SetdimWritesLegalLevel := by
  refine ⟨encodes_setdim, fun b s => ?_⟩
  have hlegal : dimLegal s.build b = true ↔ b.toNat ≤ s.build.dimMax.toNat := decide_eq_true_iff
  change Answers (execSetdim b s) s [.dim] 0 _
  unfold execSetdim
  split
  · next h =>
    refine answers_complete (keeps_setDim s b) ⟨?_, fun hd _ _ => exec_tick_slot_toNat hd⟩
    rw [if_pos (hlegal.mp h), State.reply_dim, State.begin_dim, State.setDim_dim]
  · next h =>
    refine answers_complete (Keeps.refl _ s) ⟨?_, fun hd _ _ => exec_tick_slot_toNat hd⟩
    rw [if_neg (mt hlegal.mpr h), State.reply_dim, State.begin_dim]

end Sys2Proof.Machine
end

section
/-! Faults and refusals (60_exceptions.md R180): there are none, for a command, a step or a run. -/

namespace Sys2Proof.Machine

/-- Every step goes to a next state: the block waits, or runs the event at the front of the inputs. -/
theorem goes_step (s : State) : Goes (step s) := by
  obtain ⟨-, hwait⟩ | ⟨i, rest, -, hrun⟩ := step_cases s
  · exact ⟨s, hwait⟩
  · exact ⟨eventEffect i.event (s.accept i.draws rest), hrun⟩

/-- Settles O8: each command, step and run has its next state by the laws of `effect`, `step` and `runState`, and
`Fault` has no constructor. -/
theorem nothingStopsTheBlock : Obligations.NothingStopsTheBlock :=
  ⟨fun i s => ⟨effect i s, exec_eq_effect i s⟩, goes_step, fun s ins => ⟨runState s ins, runAll_eq s ins⟩,
    ⟨fun f => nomatch f⟩⟩

end Sys2Proof.Machine
end

section
/-! The encoding: decoding what the encoder writes, and the fields that decoding reads (30_encoding.md R71, R72, R74), the
written-out words of 95_test_vectors.md, and the assembler (R80). -/

namespace Sys2Proof.Machine

/-! ### Encoding, then decoding -/

/-- Settles O3: a command's words are its opcode and operands put together, which its row of the opcode map decodes. -/
theorem decodeAfterEncode : Obligations.DecodeAfterEncode
  | .tick => encodes_tick _ _ _
  | .clr => encodes_clr _ _ _
  | .setdig _ _ => encodes_setdig _ _ _
  | .getdig _ => encodes_getdig _ _ _
  | .setdim _ => encodes_setdim _ _ _
  | .setres _ => encodes_setres _ _ _
  | .getbtn => encodes_getbtn _ _ _
  | .ackbtn => encodes_ackbtn _ _ _
  | .srwr _ => encodes_srwr _ _ _
  | .srrd => encodes_srrd _ _ _
  | .getadc => encodes_getadc _ _ _
  | .reservedB => encodes_reservedB _ _ _
  | .reservedC => encodes_reservedC _ _ _
  | .reservedD => encodes_reservedD _ _ _
  | .reservedE => encodes_reservedE _ _ _
  | .reservedF => encodes_reservedF _ _ _

/-! ### Decoding: the operands that are read -/

/-- The fields of CMD and DATA that decoding reads, those it does not read put to 0 as the encoder does (R72, R80). -/
def readFields (c : CmdWord) (d : Word) : BitVec 4 × BitVec 4 × Byte × Word :=
  (fieldOp c, if fieldOp c = 0x2 ∨ fieldOp c = 0x3 then fieldA c else 0,
    if fieldOp c = 0x2 ∨ fieldOp c = 0x4 ∨ fieldOp c = 0x5 then fieldB c else 0, if fieldOp c = 0x8 then d else 0)

/-- A decoded command has the opcode and the operands that were read. -/
theorem fields_decode (c : CmdWord) (d : Word) :
    (opcode (decode c d), operandA (decode c d), operandB (decode c d), operandData (decode c d)) = readFields c d := by
  simp only [decode, readFields]
  generalize fieldOp c = op
  obtain ⟨op, hop⟩ := op
  interval_cases op <;> rfl

/-- A command is determined by its opcode and operands, since its encoding is made of them. -/
theorem eq_of_fields_eq {i j : Instr}
    (h : (opcode i, operandA i, operandB i, operandData i) = (opcode j, operandA j, operandB j, operandData j)) :
    i = j := by
  simp only [Prod.mk.injEq] at h
  obtain ⟨hop, ha, hb, hdata⟩ := h
  have hencode : encode i = encode j := by rw [encode, encode, encodeCmd, encodeCmd, hop, ha, hb, hdata]
  rw [← decodeAfterEncode i, hencode, decodeAfterEncode j]

theorem decode_eq_decode_iff (c c' : CmdWord) (d d' : Word) :
    decode c d = decode c' d' ↔ readFields c d = readFields c' d' := by
  rw [← fields_decode, ← fields_decode]
  exact ⟨fun h => by rw [h], eq_of_fields_eq⟩

/-- Fields that are put to 0 unless `p` agree exactly when they agree under `p`. -/
theorem ite_zero_eq_ite_zero_iff {α : Type} [Zero α] {p : Prop} [Decidable p] {x y : α} :
    ((if p then x else 0) = if p then y else 0) ↔ (p → x = y) := by
  split <;> simp_all

/-- Settles O4: decoding alike is agreeing in `readFields`, which is read off field by field. -/
theorem sameCommandExactlyWhenReadFieldsAgree : Obligations.SameCommandExactlyWhenReadFieldsAgree := by
  intro c c' d d'
  rw [decode_eq_decode_iff, readFields, readFields]
  simp only [Prod.mk.injEq]
  refine and_congr_right fun hop => ?_
  rw [← hop]
  exact and_congr ite_zero_eq_ite_zero_iff (and_congr ite_zero_eq_ite_zero_iff ite_zero_eq_ite_zero_iff)

/-- Settles O2: twelve words, each evaluated. -/
theorem writtenOutWordsDecode : Obligations.WrittenOutWordsDecode := by
  unfold Obligations.WrittenOutWordsDecode
  decide

/-! ### The assembler -/

/-- The number that the command word of a command is (R71, R80). -/
theorem encodeCmd_toNat (i : Instr) :
    (encodeCmd i).toNat = (opcode i).toNat * 4096 + (operandA i).toNat * 256 + (operandB i).toNat :=
  assembled_toNat _ _ _

/-- The assembler accepts a line exactly when it is well formed (R80). -/
theorem assemble_ok_iff (l : AsmLine) : (∃ ws, assemble l = .ok ws) ↔ l.wellFormed = true := by
  unfold assemble
  split <;> simp_all

theorem assemble_of_not_wellFormed {l : AsmLine} (h : l.wellFormed = false) :
    assemble l = .error .operandOutOfRange :=
  if_neg (by simp [h])

/-- What a line assembles to that stands for one command without DATA. -/
theorem exists_word_of_assemble {l : AsmLine} {i : Instr} {n : Nat} (h : assemble l = .ok [encode i])
    (hdata : operandData i = 0)
    (hn : (opcode i).toNat * 4096 + (operandA i).toNat * 256 + (operandB i).toNat = n) :
    ∃ w, assemble l = .ok [(w, 0)] ∧ w.toNat = n :=
  ⟨encodeCmd i, by rw [h, encode, hdata], (encodeCmd_toNat i).trans hn⟩

theorem toNat_position {p : Nat} (hp : p ≤ 15) : (BitVec.ofNat 4 p).toNat = p := by
  rw [BitVec.toNat_ofNat, Nat.mod_eq_of_lt (by omega)]

theorem toNat_immediate {q : Nat} (hq : q ≤ 255) : (BitVec.ofNat 8 q).toNat = q := by
  rw [BitVec.toNat_ofNat, Nat.mod_eq_of_lt (by omega)]

theorem encode_srwr (data : Word) : encode (.srwr data) = (0x8000, data) := by
  simp [encode, encodeCmd, opcode, operandA, operandB, operandData]

theorem assemble_getdig {p : Nat} (hp : p ≤ 15) : assemble (.getdig p) = .ok [encode (.getdig (BitVec.ofNat 4 p))] :=
  assemble_of_wellFormed (decide_eq_true hp)

theorem assemble_setdim {q : Nat} (hq : q ≤ 255) : assemble (.setdim q) = .ok [encode (.setdim (BitVec.ofNat 8 q))] :=
  assemble_of_wellFormed (decide_eq_true hq)

theorem assemble_setres {q : Nat} (hq : q ≤ 255) : assemble (.setres q) = .ok [encode (.setres (BitVec.ofNat 8 q))] :=
  assemble_of_wellFormed (decide_eq_true hq)

theorem assemble_srwr {n : Nat} (hn : n ≤ 0xFFFFFFFF) :
    assemble (.srwr n) = .ok [encode (.srwr (BitVec.ofNat 32 n))] :=
  assemble_of_wellFormed (decide_eq_true hn)

/-- Settles O5: a legal line is the encoding of its one command, whose word `encodeCmd_toNat` gives as a number. -/
theorem assemblerEncodesLegalLines : Obligations.AssemblerEncodesLegalLines := by
  refine ⟨assemble_ok_iff, fun l => assemble_of_not_wellFormed, fun p q hp hq => ?_, fun p hp => ?_, fun q hq => ?_,
    fun q hq => ?_, fun n hn => ?_, rfl, rfl, rfl, rfl, rfl, rfl⟩
  · exact exists_word_of_assemble (assemble_setdig hp hq) rfl
      (by simp [opcode, operandA, operandB, toNat_position hp, toNat_immediate hq])
  · exact exists_word_of_assemble (assemble_getdig hp) rfl (by simp [opcode, operandA, operandB, toNat_position hp])
  · exact exists_word_of_assemble (assemble_setdim hq) rfl (by simp [opcode, operandA, operandB, toNat_immediate hq])
  · exact exists_word_of_assemble (assemble_setres hq) rfl (by simp [opcode, operandA, operandB, toNat_immediate hq])
  · refine ⟨BitVec.ofNat 32 n, (assemble_srwr hn).trans (by rw [encode_srwr]), ?_⟩
    rw [BitVec.toNat_ofNat, Nat.mod_eq_of_lt (by omega)]

end Sys2Proof.Machine
end

section
/-! Steps: what a step runs (20_memory.md R57), what each command may write and read (10_state.md R41), and commands
run twice (20_memory.md R56). -/

namespace Sys2Proof.Machine

/-- Settles O7: a step looks at the front of the inputs and nothing else. -/
theorem stepRunsDecodedCommand : Obligations.StepRunsDecodedCommand :=
  fun _ _ _ _ _ => ⟨rfl, rfl, rfl⟩

/-- Settles O43: the trip's step is `comparatorTrip`, which finds CMP_IE 0. -/
theorem tripWithoutEnableChangesNothing : Obligations.TripWithoutEnableChangesNothing := by
  intro s d rest hie
  exact congrArg Host.Outcome.next (comparatorTrip_of_disabled (s := { s with inbox := rest, env := d }) hie)

/-! ### What a command writes -/

/-- A command writes the registers of its row and no other (R41). -/
theorem keeps_effect (i : Instr) (s : State) : Keeps (mayWrite i) s (effect i s) := by
  cases i
  case tick => exact (keeps_tick s).trans (keeps_reply _ _ _)
  case clr => exact (keeps_setDigits s _).trans (keeps_begin_reply _ _ _)
  case setdig a b => exact (keeps_writeDigit s a b).trans (keeps_begin_reply _ _ _)
  case setdim b =>
    rw [effect_setdim]
    split
    · exact (keeps_setDim s b).trans (keeps_begin_reply _ _ _)
    · exact keeps_begin_reply _ _ _
  case setres b =>
    rw [effect_setres]
    split
    · exact (keeps_setRes s _).trans (keeps_begin_reply _ _ _)
    · exact keeps_begin_reply _ _ _
  case ackbtn => exact (keeps_setBs s _).trans (keeps_begin_reply _ _ _)
  case srwr data => exact (keeps_setSrOut s _).trans (keeps_begin_reply _ _ _)
  case getadc => rw [effect_getadc]; exact keeps_begin_reply _ _ _
  all_goals exact keeps_begin_reply _ _ _

/-- Settles O9: the frame of each command and of the trip. -/
theorem writtenByColumn : Obligations.WrittenByColumn :=
  ⟨fun i s => ⟨effect i s, exec_eq_effect i s, keeps_effect i s⟩, keeps_comparatorTrip⟩

/-! ### Commands run twice -/

theorem withAck_withAck (bs : Byte) (v : Bool) : withAck (withAck bs v) v = withAck bs v :=
  bs_ext (by simp) (by simp) (by simp) (by simp) (by simp)

/-- A command other than TICK, run again, finds written what it writes (R56). -/
theorem effect_effect {i : Instr} (h : i ≠ .tick) (s : State) : effect i (effect i s) = effect i s := by
  cases i
  case tick => exact absurd rfl h
  case setdig a b =>
    simp only [effect_setdig, State.writeDigit]
    split <;> simp [State.setDigits, State.begin, State.reply]
  case setdim b =>
    simp only [effect_setdim]
    split_ifs <;> simp_all [State.setDim, State.begin, State.reply]
  case setres b =>
    simp only [effect_setres]
    split_ifs <;> simp_all [State.setRes, State.begin, State.reply]
  case ackbtn => simp [effect_ackbtn, State.setBs, State.begin, State.reply, withAck_withAck]
  case getadc => simp [effect_getadc, State.begin, State.reply]
  all_goals rfl

theorem keeps_of_exec {i : Instr} {s t : State} (h : exec i s = .next t) : Keeps (mayWrite i) s t :=
  exec_next_iff.mp h ▸ keeps_effect i s

/-- Settles O11: `effect_effect`, and the frames of the reads, which may write nothing. -/
theorem readsAndRepeatsChangeNothing : Obligations.ReadsAndRepeatsChangeNothing := by
  refine ⟨fun i s t hi h => ?_, fun a _ _ => keeps_of_exec (i := .getdig a), fun _ _ => keeps_of_exec (i := .getbtn),
    fun _ _ => keeps_of_exec (i := .srrd), fun _ _ => keeps_of_exec (i := .getadc)⟩
  obtain rfl := exec_next_iff.mp h
  rw [exec_eq_effect, effect_effect hi]

/-! ### What a command reads -/

/-- What TICK reads, as the fields of the two states (R41). -/
theorem Agree.tick_fields {s u : State} (h : Agree (mayRead .tick) s u) :
    s.digit = u.digit ∧ s.dim = u.dim ∧ s.slot = u.slot ∧ s.bs = u.bs ∧ s.lcnt = u.lcnt ∧ s.scnt = u.scnt ∧
      s.srOut = u.srOut := by
  obtain ⟨hvalues, -, -⟩ := h
  simp only [mayRead, List.forall_mem_cons, State.value, BitVec.toNat_inj] at hvalues
  obtain ⟨h0, h1, h2, hdim, hslot, hbs, hlcnt, hscnt, hsrOut, -⟩ := hvalues
  refine ⟨Vector.ext fun k hk => ?_, hdim, hslot, hbs, hlcnt, hscnt, hsrOut⟩
  interval_cases k <;> assumption

/-- A register that is written under a condition common to both states, with a value common to both, holds the same
after both or was kept in both. -/
theorem same_or_kept {α : Type} (p : Prop) [Decidable p] (x a b : α) :
    ((if p then x else a) = if p then x else b) ∨ (if p then x else a) = a ∧ (if p then x else b) = b := by
  by_cases h : p <;> simp [h]

theorem kept_or_same {α : Type} (p : Prop) [Decidable p] (x a b : α) :
    ((if p then a else x) = if p then b else x) ∨ (if p then a else x) = a ∧ (if p then b else x) = b := by
  by_cases h : p <;> simp [h]

theorem boolToNat_inj {a b : Bool} : a.toNat = b.toNat ↔ a = b := by
  cases a <;> cases b <;> decide

/-- A command other than TICK emits no pin event. -/
theorem effect_trace_of_ne_tick {i : Instr} (h : i ≠ .tick) (s : State) : (effect i s).trace = [] := by
  cases i
  case tick => exact absurd rfl h
  case setdim b => rw [effect_setdim]; rfl
  case setres b => rw [effect_setres]; rfl
  case getadc => rw [effect_getadc]; rfl
  all_goals rfl

theorem nextSlot_congr {s u : State} (hslot : s.slot = u.slot) (hdim : s.dim = u.dim) : nextSlot s = nextSlot u := by
  rw [nextSlot, nextSlot, hslot, hdim]

/-- The pin events of a tick depend on the registers it reads alone. -/
theorem tick_trace_congr {s u : State} (h : Agree (mayRead .tick) s u) : (tick s).trace = (tick u).trace := by
  obtain ⟨hdigit, hdim, hslot, -, -, hscnt, hsrOut⟩ := h.tick_fields
  obtain ⟨-, hbuild, -⟩ := h
  simp only [tick_trace, countdownEvents, senseEvents, lightEvents, nextSlot_congr hslot hdim, hdigit, hslot, hscnt,
    hsrOut, hbuild]

/-- The writes of a tick depend on the registers it reads alone: SEG, SR_IN, T0, CMP_IE and the lines are written or
kept under conditions on these. -/
theorem sameEffect_tick {s u : State} (h : Agree (mayRead .tick) s u) :
    SameEffect (mayWrite .tick) s (tick s) u (tick u) := by
  obtain ⟨hdigit, hdim, hslot, hbs, hlcnt, hscnt, hsrOut⟩ := h.tick_fields
  obtain ⟨-, hbuild, henv⟩ := h
  have hnext := nextSlot_congr hslot hdim
  obtain ⟨hdebBs, hdebLcnt⟩ := debounce_congr u.env.btn hbs hlcnt (congrArg Build.longSamples hbuild)
  have hseg : (tick s).seg = (tick u).seg ∨ (tick s).seg = s.seg ∧ (tick u).seg = u.seg := by
    simp only [tick_seg, hnext, hdigit]
    by_cases hlit : (nextSlot u).toNat < digitCount
    · exact .inl (by simp only [hlit, dite_true])
    · exact .inr (by simp only [hlit, dite_false, and_self])
  simp only [SameEffect, mayWrite, List.forall_mem_cons, List.not_mem_nil, false_implies, implies_true, and_true,
    State.value, State.level, BitVec.toNat_inj, boolToNat_inj, tick_slot, tick_anode, tick_bs, tick_lcnt, tick_scnt,
    tick_srIn, tick_t0, tick_cmpIe, tick_srDout, tick_srClk, tick_srLoad, tick_srDinOe, tick_btnCom, tick_senseDrv, hnext,
    hslot, hbs, hlcnt, hscnt, hdebBs, hdebLcnt, hbuild, henv, true_or, true_and]
  exact ⟨hseg, kept_or_same _ _ _ _, same_or_kept _ _ _ _, same_or_kept _ _ _ _, kept_or_same _ _ _ _,
    kept_or_same _ _ _ _, kept_or_same _ _ _ _, kept_or_same _ _ _ _, same_or_kept _ _ _ _, same_or_kept _ _ _ _⟩

/-- Where both states end alike in a register, the effect on it is the same. -/
theorem SameEffect.of_eq {ws : List Reg} {s t u v : State} (h : ∀ r ∈ ws, t.value r = v.value r) :
    SameEffect ws s t u v := fun r hr => .inl (h r hr)

/-- The answer to the host is no register. -/
theorem value_reply (s : State) (v : Word) (r : Reg) : (s.reply v).value r = s.value r :=
  (keeps_reply [] s v).1 r List.not_mem_nil

/-- A command other than TICK writes values that depend on the registers it reads alone. -/
theorem sameEffect_effect {i : Instr} {s u : State} (h : Agree (mayRead i) s u) :
    SameEffect (mayWrite i) s (effect i s) u (effect i u) := by
  cases i
  case tick => simpa only [SameEffect, effect_tick, value_reply] using sameEffect_tick h
  case clr =>
    refine .of_eq fun r hr => ?_
    simp only [mayWrite, List.mem_cons, List.not_mem_nil, or_false] at hr
    obtain rfl | rfl | rfl := hr <;> rfl
  case setdig a b =>
    by_cases ha : a.toNat < digitCount
    · have hwritten (w : State) : (effect (.setdig a b) w).value (.digit ⟨a.toNat, ha⟩) = b.toNat :=
        congrArg BitVec.toNat ((writeDigit_getElem w a b ⟨a.toNat, ha⟩).trans (if_pos rfl))
      refine .of_eq ?_
      rw [mayWrite, dif_pos ha, List.forall_mem_singleton, hwritten s, hwritten u]
    · rw [mayWrite, dif_neg ha]
      exact fun r hr => absurd hr List.not_mem_nil
  case setdim b =>
    obtain ⟨-, hbuild, -⟩ := h
    simp only [SameEffect, mayWrite, List.forall_mem_singleton, effect_setdim, hbuild]
    split <;> simp [State.value]
  case setres b =>
    obtain ⟨-, hbuild, -⟩ := h
    simp only [SameEffect, mayWrite, List.forall_mem_singleton, effect_setres, hbuild]
    split <;> simp [State.value]
  case ackbtn =>
    obtain ⟨hvalues, -, -⟩ := h
    simp only [mayRead, List.forall_mem_singleton, State.value, BitVec.toNat_inj] at hvalues
    simp [SameEffect, mayWrite, effect_ackbtn, State.value, hvalues]
  case srwr data =>
    obtain ⟨-, hbuild, -⟩ := h
    simp [SameEffect, mayWrite, effect_srwr, State.value, hbuild]
  all_goals exact fun r hr => absurd hr List.not_mem_nil

theorem readDigit_congr {a : BitVec 4} {s u : State} (h : Agree (mayRead (.getdig a)) s u) :
    s.readDigit a = u.readDigit a := by
  obtain ⟨hvalues, -, -⟩ := h
  unfold State.readDigit
  split
  · next ha =>
    rw [mayRead, dif_pos ha, List.forall_mem_singleton] at hvalues
    exact BitVec.eq_of_toNat_eq hvalues
  · rfl

/-- A command's answer depends on the registers it reads alone. -/
theorem effect_rdata_congr {i : Instr} {s u : State} (h : Agree (mayRead i) s u) :
    (effect i s).rdata = (effect i u).rdata := by
  cases i
  case getdig a => exact congrArg zext32 (readDigit_congr h)
  case getbtn => exact congrArg zext32 (BitVec.eq_of_toNat_eq (h.1 .bs (by simp [mayRead])))
  case srrd => exact BitVec.eq_of_toNat_eq (h.1 .srIn (by simp [mayRead]))
  case getadc =>
    have hsample : s.sample = u.sample := BitVec.eq_of_toNat_eq (h.1 .sample (by simp [mayRead]))
    rw [effect_getadc, effect_getadc, State.reply_rdata, State.reply_rdata, h.2.1, hsample]
  case setdim b => rw [effect_setdim, effect_setdim]; rfl
  case setres b => rw [effect_setres, effect_setres]; rfl
  all_goals rfl

theorem effect_trace_congr {i : Instr} {s u : State} (h : Agree (mayRead i) s u) :
    (effect i s).trace = (effect i u).trace := by
  by_cases hi : i = .tick
  · subst hi
    rw [effect_tick, effect_tick, State.reply_trace, State.reply_trace, tick_trace_congr h]
  · rw [effect_trace_of_ne_tick hi, effect_trace_of_ne_tick hi]

/-- A trip writes values that depend on the registers the capture reads alone. -/
theorem sameEffect_comparatorTrip {s u : State} (h : Agree captureReads s u) :
    SameEffect captureWrites s (comparatorTrip s) u (comparatorTrip u) := by
  obtain ⟨hvalues, hbuild, henv⟩ := h
  simp only [captureReads, List.forall_mem_cons, State.value, BitVec.toNat_inj, boolToNat_inj] at hvalues
  obtain ⟨hres, hsample, ht0, hie, -⟩ := hvalues
  refine .of_eq ?_
  simp only [captureWrites, List.forall_mem_cons, List.not_mem_nil, false_implies, implies_true, and_true, State.value,
    comparatorTrip_eq, hie]
  split
  · simp [hres, hsample, ht0, hbuild, henv]
  · simp [hsample, hie]

/-- Settles O10: the answer, the trace and the writes of a command, and the writes of a trip. -/
theorem readByColumn : Obligations.ReadByColumn := by
  refine ⟨fun i s u t v h hs hu => ?_, fun _ _ => sameEffect_comparatorTrip⟩
  obtain rfl := exec_next_iff.mp hs
  obtain rfl := exec_next_iff.mp hu
  exact ⟨effect_rdata_congr h, effect_trace_congr h, sameEffect_effect h⟩

end Sys2Proof.Machine
end

section
/-! The legal states: the reset state is one (70_reset_and_hazards.md R200, R201), and every step keeps them legal. -/

namespace Sys2Proof.Machine

/-! ### Reset -/

/-- Settles O14: the table of R201, entry by entry. -/
theorem resetValues : Obligations.ResetValues := by
  refine fun b => ⟨fun k => ?_, rfl, rfl, rfl, rfl, rfl, rfl, rfl, rfl, rfl, rfl, rfl, rfl, rfl, rfl, rfl, rfl, rfl,
    rfl, rfl, rfl⟩
  fin_cases k <;> rfl

theorem scaleLegal_of_le {e : Scale} (h : ∀ raw < 256, scaleEval raw e ≤ 511) : scaleLegal e = true :=
  List.all_eq_true.mpr fun raw hraw => decide_eq_true (h raw (List.mem_range.mp hraw))

/-- A build is legal exactly when each parameter and each scale function is in its range (00_scope.md R8). -/
theorem buildLegal_iff (b : Build) :
    buildLegal b = true ↔
      b.sampleTicks.toNat ≠ 0 ∧ b.longSamples.toNat ≠ 0 ∧ b.dimMax.toNat ≤ 251 ∧ scaleLegal b.scale.level1 = true ∧
        scaleLegal b.scale.level2 = true ∧ scaleLegal b.scale.level3 = true ∧ scaleLegal b.scale.level4 = true ∧
        scaleLegal b.scale.level5 = true ∧ scaleLegal b.scale.level6 = true := by
  simp only [buildLegal, Bool.and_eq_true, decide_eq_true_iff, and_assoc]

/-- No default scale function exceeds `raw + raw / 2` (42_analog.md R137). -/
theorem buildLegal_default : buildLegal Config.defaultBuild = true := by
  refine (buildLegal_iff _).mpr ⟨by decide, by decide, by decide, ?_, ?_, ?_, ?_, ?_, ?_⟩
  all_goals
    refine scaleLegal_of_le fun raw hraw => ?_
    simp only [Config.defaultBuild, Config.defaultScale, scaleEval]
    omega

/-- The state after reset is legal, for every legal build. -/
theorem inv_resetOf {b : Build} (h : buildLegal b = true) : Inv (State.resetOf b) := by
  obtain ⟨hticks, -⟩ := (buildLegal_iff b).mp h
  exact {
    build := h
    dim := Nat.zero_le _
    slot := Nat.zero_le _
    lit := .inl rfl
    reserved := (by decide : reservedOf 0 = 0)
    pressed := (by decide : pressOf 0 = true ∨ longOf 0 = true → btnOf 0 ≠ 0)
    lcntMax := Nat.zero_le _
    lcntMin := fun hpress => absurd hpress (by decide : pressOf 0 ≠ true)
    scntMin := Nat.pos_of_ne_zero hticks
    scntMax := Nat.le_refl _
    srOut := Nat.two_pow_pos _
    srIn := Nat.two_pow_pos _
    idle := ⟨rfl, rfl, rfl, rfl⟩
    btnCom := rfl
    analogOff := fun _ => ⟨rfl, rfl, rfl⟩
    released := fun h => nomatch h }

/-- Settles O13: `inv_resetOf` for every build, and the default parameters one by one. -/
theorem resetStateIsLegal : Obligations.ResetStateIsLegal :=
  ⟨fun _ => inv_resetOf, buildLegal_default, rfl⟩

/-! ### Commands and trips -/

/-- The outputs of a step are no part of a legal state. -/
theorem Inv.after_begin_reply {s : State} (h : Inv s) (v : Word) : Inv (s.begin.reply v) := { h with }

theorem Inv.after_reply {s : State} (h : Inv s) (v : Word) : Inv (s.reply v) := { h with }

theorem Inv.after_accept {s : State} (h : Inv s) (d : Option Draws) (rest : List Input) : Inv (s.accept d rest) := by
  cases d <;> exact { h with }

theorem Inv.after_setDigits {s : State} (h : Inv s) (ds : Vector Byte digitCount) : Inv (s.setDigits ds) := { h with }

theorem Inv.after_setRes {s : State} (h : Inv s) (v : BitVec 3) : Inv (s.setRes v) := { h with }

theorem Inv.after_setDim {s : State} (h : Inv s) {v : Byte} (hv : v.toNat ≤ s.build.dimMax.toNat) : Inv (s.setDim v) :=
  { h with dim := hv }

theorem Inv.after_setSrOut {s : State} (h : Inv s) {v : Word} (hv : v.toNat < 2 ^ s.build.srOutW.val) :
    Inv (s.setSrOut v) :=
  { h with srOut := hv }

/-- ACK is in no relation to another field. -/
theorem Inv.after_setAck {s : State} (h : Inv s) (v : Bool) : Inv (s.setBs (withAck s.bs v)) :=
  { h with
    reserved := by simpa using h.reserved
    pressed := by simpa using h.pressed
    lcntMin := by simpa using h.lcntMin }

/-- A capture happens only where the sampler is built in (42_analog.md R133). -/
theorem Inv.after_comparatorTrip {s : State} (h : Inv s) : Inv (comparatorTrip s) := by
  rw [comparatorTrip_eq]
  split
  · next hie => exact { h with analogOff := fun hoff => absurd hie (by simp [(h.analogOff hoff).1]) }
  · exact h

theorem toNat_and_mask_lt (data : Word) {w : Nat} (hw : w ≤ 32) : (data &&& mask w).toNat < 2 ^ w :=
  Nat.lt_pow_two_of_testBit _ fun k hk => by
    rw [BitVec.testBit_toNat, getLsbD_and_mask data hw, decide_eq_false hk.not_gt, Bool.false_and]

theorem toNat_sampledWord_lt (din : Word) {w : Nat} (hw : w ≤ 32) : (sampledWord din w).toNat < 2 ^ w :=
  Nat.lt_pow_two_of_testBit _ fun k hk => by
    rw [BitVec.testBit_toNat, sampledWord_getLsbD din hw, decide_eq_false hk.not_gt, Bool.false_and]

/-! ### The debouncer -/

/-- The part of a legal state that the debouncer writes, with the long-press delay it reads (40_buttons.md R96). -/
structure ButtonsLegal (s : State) : Prop where
  delay : s.build.longSamples.toNat ≠ 0
  reserved : reservedOf s.bs = 0
  pressed : pressOf s.bs = true ∨ longOf s.bs = true → btnOf s.bs ≠ 0
  lcntMax : s.lcnt.toNat ≤ s.build.longSamples.toNat
  lcntMin : pressOf s.bs = true → longOf s.bs = false → 1 ≤ s.lcnt.toNat

theorem Inv.buttonsLegal {s : State} (h : Inv s) : ButtonsLegal s where
  delay := ((buildLegal_iff _).mp h.build).2.1
  reserved := h.reserved
  pressed := h.pressed
  lcntMax := h.lcntMax
  lcntMin := h.lcntMin

theorem ButtonsLegal.after_release {s : State} (h : ButtonsLegal s) (hp : pressOf s.bs = true) :
    ButtonsLegal (release s) := by
  have hbtn := h.pressed (.inl hp)
  by_cases hla : longOf s.bs = true ∧ ackOf s.bs = true
  · rw [release_long hla.1 hla.2]
    exact { h with reserved := by simpa using h.reserved, pressed := by simpa using fun _ => hbtn, lcntMin := by simp }
  · rw [release_short hla]
    exact { h with reserved := by simpa using h.reserved, pressed := by simp, lcntMin := by simp }

theorem ButtonsLegal.after_pressStart {s : State} (h : ButtonsLegal s) {r : BitVec 2} (hr : r ≠ 0) :
    ButtonsLegal (pressStart r s) where
  delay := h.delay
  reserved := by simpa [pressStart] using h.reserved
  pressed := by simpa [pressStart] using hr
  lcntMax := Nat.le_refl _
  lcntMin := fun _ _ => Nat.pos_of_ne_zero h.delay

theorem ButtonsLegal.after_bothEvent {s : State} (h : ButtonsLegal s) : ButtonsLegal (bothEvent s) where
  delay := h.delay
  reserved := by simpa [bothEvent] using h.reserved
  pressed := by simp [bothEvent]
  lcntMax := Nat.le_refl _
  lcntMin := fun _ _ => Nat.pos_of_ne_zero h.delay

theorem ButtonsLegal.after_held {s : State} (h : ButtonsLegal s) (hp : pressOf s.bs = true) :
    ButtonsLegal (held s) := by
  have hbtn := h.pressed (.inl hp)
  cases hl : longOf s.bs
  · have hmin := h.lcntMin hp hl
    have hmax := h.lcntMax
    by_cases hlast : s.lcnt - 1 = 0
    · rw [held_last hl hlast]
      exact { h with
        reserved := by simpa using h.reserved
        pressed := by simpa using hbtn
        lcntMax := Nat.zero_le _
        lcntMin := by simp }
    · have hcount : (s.lcnt - 1).toNat = s.lcnt.toNat - 1 := by bv_omega
      have hpos : (s.lcnt - 1).toNat ≠ 0 := fun h0 => hlast (BitVec.eq_of_toNat_eq h0)
      rw [held_counts hl hlast]
      exact { h with
        lcntMax := hcount.trans_le ((Nat.sub_le _ _).trans hmax)
        lcntMin := fun _ _ => Nat.pos_of_ne_zero hpos }
  · rwa [held_long hl]

/-- Every case of a debouncer run keeps its part of the state legal (R92). -/
theorem ButtonsLegal.after_debounce {s : State} (h : ButtonsLegal s) (r : BitVec 2) : ButtonsLegal (debounce r s) := by
  unfold debounce
  split
  · split
    · next hp => exact h.after_release hp
    · exact h
  next hr =>
  split
  · exact h.after_pressStart hr
  next hp =>
  split
  · exact h.after_bothEvent
  split
  · exact h.after_held (by simpa using hp)
  · exact h

/-! ### The tick -/

/-- DIM never exceeds 251, so that a re-seed does not wrap (C7). -/
theorem Inv.dim_le {s : State} (h : Inv s) : s.dim.toNat ≤ 251 :=
  h.dim.trans ((buildLegal_iff _).mp h.build).2.2.1

/-- SLOT after a tick from a legal state (43_display.md R153, R154). -/
theorem Inv.nextSlot_toNat {s : State} (h : Inv s) :
    (nextSlot s).toNat = if s.slot = 0 then 3 + s.dim.toNat else s.slot.toNat - 1 := by
  rw [← effect_tick_slot, effect_tick_slot_toNat h.dim_le]

theorem ButtonsLegal.of_eq {s t : State} (h : ButtonsLegal s) (hbs : t.bs = s.bs) (hlcnt : t.lcnt = s.lcnt)
    (hbuild : t.build = s.build) : ButtonsLegal t := by
  obtain ⟨hdelay, hreserved, hpressed, hmax, hmin⟩ := h
  constructor <;> simpa only [hbs, hlcnt, hbuild]

/-- A tick leaves the buttons as it found them, or as a debouncer run does (40_buttons.md R90). -/
theorem ButtonsLegal.after_tick {s : State} (h : ButtonsLegal s) : ButtonsLegal (tick s) := by
  by_cases hs : s.scnt = 1
  · exact (h.after_debounce s.env.btn).of_eq (by rw [tick_bs, if_pos hs]) (by rw [tick_lcnt, if_pos hs])
      (by rw [tick_build, debounce_build])
  · exact h.of_eq (by rw [tick_bs, if_neg hs]) (by rw [tick_lcnt, if_neg hs]) (tick_build s)

/-- A tick that leaves SLOT above the digits leaves them dark, any other lights digit SLOT (43_display.md R155). -/
theorem tick_lit (s : State) :
    (tick s).anode = 0 ∨
      ((tick s).slot.toNat < digitCount ∧ (tick s).anode = 1#3 <<< (tick s).slot.toNat) := by
  rw [tick_anode, tick_slot]
  split
  · next hlit => exact .inr ⟨hlit, rfl⟩
  · exact .inl rfl

/-- The sense pin is released by an arming tick alone, which leaves the display dark (43_display.md R156). -/
theorem Inv.released_after_tick {s : State} (h : Inv s) (hsense : (tick s).senseDrv = false) : (tick s).anode = 0 := by
  rw [tick_senseDrv] at hsense
  split at hsense
  · have hslot : s.slot = 0 := by simpa using hsense
    have hnext := h.nextSlot_toNat
    rw [if_pos hslot] at hnext
    rw [tick_anode, if_neg (by rw [digitCount]; omega)]
  · next hoff =>
    obtain ⟨-, -, hdriven⟩ := h.analogOff (by simpa using hoff)
    simp [hdriven] at hsense

/-- SCNT stays in its interval (40_buttons.md R90). -/
theorem Inv.scnt_after_tick {s : State} (h : Inv s) :
    1 ≤ (tick s).scnt.toNat ∧ (tick s).scnt.toNat ≤ s.build.sampleTicks.toNat := by
  obtain ⟨hticks, -⟩ := (buildLegal_iff _).mp h.build
  have hmin := h.scntMin
  have hmax := h.scntMax
  rw [tick_scnt]
  split
  · exact ⟨Nat.pos_of_ne_zero hticks, Nat.le_refl _⟩
  · bv_omega

theorem Inv.after_tick {s : State} (h : Inv s) : Inv (tick s) := by
  have hbuttons := h.buttonsLegal.after_tick
  obtain ⟨hdout, hclk, hload, hoe⟩ := h.idle
  obtain ⟨hscntMin, hscntMax⟩ := h.scnt_after_tick
  exact {
    build := by rw [tick_build]; exact h.build
    dim := by rw [tick_dim, tick_build]; exact h.dim
    slot := by
      have hslot : s.slot.toNat ≤ 3 + s.build.dimMax.toNat := h.slot
      have hdim := h.dim
      rw [tick_slot, tick_build, h.nextSlot_toNat, digitCount]
      split <;> omega
    lit := tick_lit s
    reserved := hbuttons.reserved
    pressed := hbuttons.pressed
    lcntMax := hbuttons.lcntMax
    lcntMin := hbuttons.lcntMin
    scntMin := hscntMin
    scntMax := by rwa [tick_build]
    srOut := by rw [tick_srOut, tick_build]; exact h.srOut
    srIn := by
      rw [tick_srIn, tick_build]
      split
      · exact h.srIn
      · exact toNat_sampledWord_lt _ (by omega)
    idle := by simp [hdout, hclk, hload, hoe]
    btnCom := by rw [tick_btnCom, h.btnCom, ite_self]
    analogOff := fun hoff => by
      rw [tick_build] at hoff
      simpa [hoff] using h.analogOff hoff
    released := h.released_after_tick }

/-! ### Every step -/

theorem Inv.after_effect {s : State} (h : Inv s) (i : Instr) : Inv (effect i s) := by
  cases i
  case tick => exact h.after_tick.after_reply 0
  case clr => exact (h.after_setDigits _).after_begin_reply 0
  case setdig a b =>
    rw [effect_setdig, State.writeDigit]
    split
    · exact (h.after_setDigits _).after_begin_reply 0
    · exact h.after_begin_reply 0
  case setdim b =>
    rw [effect_setdim]
    split
    · next hb => exact (h.after_setDim (of_decide_eq_true hb)).after_begin_reply 0
    · exact h.after_begin_reply 0
  case setres b =>
    rw [effect_setres]
    split
    · exact (h.after_setRes _).after_begin_reply 0
    · exact h.after_begin_reply 0
  case ackbtn => exact (h.after_setAck true).after_begin_reply 0
  case srwr data => exact (h.after_setSrOut (toNat_and_mask_lt data (by omega))).after_begin_reply 0
  case getadc => rw [effect_getadc]; exact h.after_begin_reply _
  all_goals exact h.after_begin_reply _

theorem Inv.after_event {s : State} (h : Inv s) (e : Event) : Inv (eventEffect e s) := by
  cases e with
  | command cmd data => exact h.after_effect _
  | trip => exact h.after_comparatorTrip

/-- Settles O12: a step waits, or runs an event, which keeps `Inv`. -/
theorem stepKeepsLegalStates : Obligations.StepKeepsLegalStates := by
  intro s t h hstep
  obtain ⟨-, hwait⟩ | ⟨i, rest, -, hrun⟩ := step_cases s
  · obtain rfl : s = t := by injection hwait.symm.trans hstep
    exact h
  · obtain rfl : eventEffect i.event (s.accept i.draws rest) = t := by injection hrun.symm.trans hstep
    exact (h.after_accept i.draws rest).after_event i.event

/-! ### A block without inputs -/

/-- Settles O39: SR_IN is below `2^0`. -/
theorem srrdWithoutInputsReturnsZero : Obligations.SrrdWithoutInputsReturnsZero := by
  intro s h hwidth
  have hzero : s.srIn = 0 := by
    have hlt := h.srIn
    rw [hwidth] at hlt
    exact BitVec.eq_of_toNat_eq (Nat.lt_one_iff.mp hlt)
  rw [← hzero]
  exact answers_complete (Keeps.refl [] s) trivial

end Sys2Proof.Machine
end

section
/-! The shift-register engine: what an exchange's events count (41_shiftreg.md R115), and the loopback of a word (R118,
70_reset_and_hazards.md R209). -/

namespace Sys2Proof.Machine

/-! ### Counting the events of a tick -/

/-- The event is the falling edge of SR_LOAD that begins a load pulse (R113). -/
def isLoadFall (e : PinEvent) : Bool := e = .out .srLoad false

/-- The output phase makes a clock edge per bit (R111). -/
theorem countP_clockRise_outputEvents (w : Word) (n : Nat) : (outputEvents w n).countP isClockRise = n := by
  induction n with
  | zero => rfl
  | succ n ih => simp [outputEvents, pulseEvents, isClockRise, ih]

theorem countP_loadFall_outputEvents (w : Word) (n : Nat) : (outputEvents w n).countP isLoadFall = 0 := by
  induction n with
  | zero => rfl
  | succ n ih => simp [outputEvents, pulseEvents, isLoadFall, ih]

theorem length_outputEvents (w : Word) (n : Nat) : (outputEvents w n).length = 4 * n := by
  induction n with
  | zero => rfl
  | succ n ih =>
    simp only [outputEvents, pulseEvents, List.length_append, List.length_cons, List.length_nil, ih]
    omega

/-- The input phase makes a clock edge per bit (R114). -/
theorem countP_clockRise_pulsesEvents (n : Nat) : (pulsesEvents n).countP isClockRise = n := by
  induction n with
  | zero => rfl
  | succ n ih => simp [pulsesEvents, pulseEvents, isClockRise, ih]

theorem countP_loadFall_pulsesEvents (n : Nat) : (pulsesEvents n).countP isLoadFall = 0 := by
  induction n with
  | zero => rfl
  | succ n ih => simp [pulsesEvents, pulseEvents, isLoadFall, ih]

theorem length_pulsesEvents (n : Nat) : (pulsesEvents n).length = 3 * n := by
  induction n with
  | zero => rfl
  | succ n ih =>
    simp only [pulsesEvents, pulseEvents, List.length_append, List.length_cons, List.length_nil, ih]
    omega

/-- The events of the output half of an exchange, up to the load pulse (R111, R112). -/
def outputHalf (b : Build) (w : Word) : List PinEvent := outputEvents w b.srOutW.val ++ [.out .srDout true]

/-- The events of the input half, from the end of the load pulse on (R114). -/
def inputHalf (b : Build) : List PinEvent :=
  if b.srInW.val = 0 then [] else .out .srDinOe false :: pulsesEvents b.srInW.val ++ [.out .srDinOe true]

/-- An exchange with any width is its two halves around the load pulse (R110). -/
theorem exchangeEvents_eq {b : Build} (h : ¬(b.srOutW.val = 0 ∧ b.srInW.val = 0)) (w : Word) :
    exchangeEvents b w = outputHalf b w ++ [.out .srLoad false, .out .srLoad true] ++ inputHalf b := by
  rw [exchangeEvents, if_neg h, outputHalf, inputHalf]
  simp

theorem countP_clockRise_outputHalf (b : Build) (w : Word) :
    (outputHalf b w).countP isClockRise = b.srOutW.val := by
  rw [outputHalf, List.countP_append, countP_clockRise_outputEvents]
  rfl

theorem countP_loadFall_outputHalf (b : Build) (w : Word) : (outputHalf b w).countP isLoadFall = 0 := by
  rw [outputHalf, List.countP_append, countP_loadFall_outputEvents]
  rfl

theorem countP_clockRise_inputHalf (b : Build) : (inputHalf b).countP isClockRise = b.srInW.val := by
  unfold inputHalf
  split
  · next h => rw [h]; rfl
  · simp [countP_clockRise_pulsesEvents, isClockRise]

theorem countP_loadFall_inputHalf (b : Build) : (inputHalf b).countP isLoadFall = 0 := by
  unfold inputHalf
  split
  · rfl
  · simp [countP_loadFall_pulsesEvents, isLoadFall]

/-- How many events an exchange makes (R115). -/
theorem length_exchangeEvents (b : Build) (w : Word) :
    (exchangeEvents b w).length =
      if b.srOutW.val = 0 ∧ b.srInW.val = 0 then 0
      else 4 * b.srOutW.val + 3 + if b.srInW.val = 0 then 0 else 3 * b.srInW.val + 2 := by
  split
  · next h => rw [exchangeEvents, if_pos h]; rfl
  · next h =>
    rw [exchangeEvents_eq h, outputHalf, inputHalf]
    split <;>
      simp only [List.length_append, List.length_cons, List.length_nil, length_outputEvents, length_pulsesEvents]

theorem countP_clockRise_exchangeEvents (b : Build) (w : Word) :
    (exchangeEvents b w).countP isClockRise = b.srOutW.val + b.srInW.val := by
  by_cases h : b.srOutW.val = 0 ∧ b.srInW.val = 0
  · rw [exchangeEvents, if_pos h, h.1, h.2]
    rfl
  · rw [exchangeEvents_eq h, List.countP_append, List.countP_append, countP_clockRise_outputHalf,
      countP_clockRise_inputHalf]
    rfl

theorem countP_loadFall_exchangeEvents (b : Build) (w : Word) :
    (exchangeEvents b w).countP isLoadFall = if b.srOutW.val = 0 ∧ b.srInW.val = 0 then 0 else 1 := by
  split
  · next h =>
    rw [exchangeEvents, if_pos h]
    rfl
  · next h =>
    rw [exchangeEvents_eq h, List.countP_append, List.countP_append, countP_loadFall_outputHalf,
      countP_loadFall_inputHalf]
    rfl

/-- The events of a tick after its exchange are on other lines (43_display.md R150). -/
def laterEvents (s : State) : List PinEvent := countdownEvents s ++ senseEvents s ++ lightEvents s

theorem countP_laterEvents (s : State) :
    (laterEvents s).countP isClockRise = 0 ∧ (laterEvents s).countP isLoadFall = 0 := by
  unfold laterEvents countdownEvents senseEvents lightEvents
  split_ifs <;> simp [isClockRise, isLoadFall]

theorem effect_tick_trace_eq (s : State) :
    (effect .tick s).trace = .outAnode 0 :: (exchangeEvents s.build s.srOut ++ laterEvents s) := by
  rw [effect_tick_trace, laterEvents]
  simp

/-- Outside its exchange a tick drives neither SR_CLK nor SR_LOAD. -/
theorem countP_effect_tick_trace (s : State) :
    (effect .tick s).trace.countP isClockRise = (exchangeEvents s.build s.srOut).countP isClockRise ∧
      (effect .tick s).trace.countP isLoadFall = (exchangeEvents s.build s.srOut).countP isLoadFall := by
  obtain ⟨hrise, hfall⟩ := countP_laterEvents s
  rw [effect_tick_trace_eq, List.countP_cons, List.countP_cons, List.countP_append, List.countP_append, hrise, hfall]
  exact ⟨rfl, rfl⟩

/-- The load pulse stands between the output edges and the input edges (R110). -/
theorem effect_tick_trace_load {s : State} (h : ¬(s.build.srOutW.val = 0 ∧ s.build.srInW.val = 0)) :
    ∃ l₁ l₂, (effect .tick s).trace = l₁ ++ [.out .srLoad false, .out .srLoad true] ++ l₂ ∧
      l₁.countP isClockRise = s.build.srOutW.val ∧ l₂.countP isClockRise = s.build.srInW.val := by
  refine ⟨.outAnode 0 :: outputHalf s.build s.srOut, inputHalf s.build ++ laterEvents s, ?_, ?_, ?_⟩
  · rw [effect_tick_trace_eq, exchangeEvents_eq h]
    simp
  · rw [List.countP_cons, countP_clockRise_outputHalf]
    rfl
  · rw [List.countP_append, countP_clockRise_inputHalf, (countP_laterEvents s).1, Nat.add_zero]

theorem effect_tick_idle {s : State} (hdout : s.srDout = true) (hclk : s.srClk = false) (hload : s.srLoad = true)
    (hoe : s.srDinOe = true) :
    (effect .tick s).srDout = true ∧ (effect .tick s).srClk = false ∧ (effect .tick s).srLoad = true ∧
      (effect .tick s).srDinOe = true := by
  simp [effect_tick, hdout, hclk, hload, hoe]

/-- Settles O23: the edges and the load pulse of a tick are those of its exchange. -/
theorem tickClocksEveryBitOnce : Obligations.TickClocksEveryBitOnce := by
  intro s
  obtain ⟨hrise, hfall⟩ := countP_effect_tick_trace s
  refine ⟨effect .tick s, exec_eq_effect .tick s, ?_, ?_, effect_tick_trace_load,
    exchangeEvents_infix_effect_tick_trace s, exchange_trace s, length_exchangeEvents s.build s.srOut, effect_tick_idle⟩
  · rw [hrise, countP_clockRise_exchangeEvents]
  · exact hfall.trans (countP_loadFall_exchangeEvents s.build s.srOut)

/-! ### The loopback -/

/-- Samples that loop back the low `w` bits of a word, in the order in which they are driven, give the word (R118). -/
theorem sampledWord_loopback {din x : Word} {w : Nat} (hw : w ≤ 32) (hx : ∀ k, w ≤ k → x.getLsbD k = false)
    (hloop : ∀ k, k < w → din.getLsbD k = x.getLsbD (w - 1 - k)) : sampledWord din w = x := by
  apply BitVec.eq_of_getLsbD_eq
  intro k _
  rw [sampledWord_getLsbD din hw]
  by_cases hk : k < w
  · have hback : w - 1 - (w - 1 - k) = k := by omega
    rw [hloop _ (by omega), hback, decide_eq_true hk, Bool.true_and]
  · rw [hx k (Nat.not_lt.mp hk), decide_eq_false hk, Bool.false_and]

theorem getLsbD_eq_false_of_toNat_lt {x : Word} {w k : Nat} (h : x.toNat < 2 ^ w) (hk : w ≤ k) :
    x.getLsbD k = false :=
  Nat.testBit_lt_two_pow (h.trans_le (Nat.pow_le_pow_right (by decide) hk))

/-- A tick with the loopback fixture brings SR_OUT back in SR_IN. -/
theorem tick_srIn_of_loopback {s : State} (hsame : s.build.srOutW = s.build.srInW) (hin : 0 < s.build.srInW.val)
    (hhigh : ∀ k, s.build.srOutW.val ≤ k → s.srOut.getLsbD k = false)
    (hloop : ∀ k, k < s.build.srOutW.val → s.env.din.getLsbD k = s.srOut.getLsbD (s.build.srOutW.val - 1 - k)) :
    (tick s).srIn = s.srOut := by
  rw [tick_srIn, if_neg hin.ne', ← hsame]
  exact sampledWord_loopback (by omega) hhigh hloop

/-- Settles O24: in a legal state SR_OUT has no bit above its width. -/
theorem loopbackReturnsOutputWord : Obligations.LoopbackReturnsOutputWord := by
  intro s h hsame hin hloop
  refine ⟨effect .tick s, exec_eq_effect .tick s, ?_⟩
  rw [effect_tick, State.reply_srIn]
  exact tick_srIn_of_loopback hsame hin (fun k => getLsbD_eq_false_of_toNat_lt h.srOut) hloop

/-! ### SRWR, TICK, SRRD -/

theorem decode_srwr (data : Word) : decode 0x8000 data = .srwr data := by
  have h := decodeAfterEncode (.srwr data)
  rwa [encode_srwr] at h

theorem decode_tick : decode 0x0000 0 = .tick := by decide

theorem decode_srrd : decode 0x9000 0 = .srrd := by decide

/-- What a run of SRWR and TICK leaves to the SRRD after it: the SR_IN of the tick. -/
theorem runState_srwr_tick_srrd_rdata (s : State) (w : Word) (d₁ d₂ d₃ : Draws) :
    ∃ v : State, v.srOut = w &&& mask s.build.srOutW.val ∧ v.build = s.build ∧ v.env = d₂ ∧
      (runState s [⟨.command 0x8000 w, some d₁⟩, ⟨.command 0x0000 0, some d₂⟩, ⟨.command 0x9000 0, some d₃⟩]).rdata =
        (tick v).srIn := by
  refine ⟨(effect (.srwr w) (s.accept (some d₁) [⟨.command 0x0000 0, some d₂⟩, ⟨.command 0x9000 0, some d₃⟩])).accept
    (some d₂) [⟨.command 0x9000 0, some d₃⟩], rfl, rfl, rfl, ?_⟩
  simp only [runState, eventEffect, decode_srwr, decode_tick, decode_srrd, effect_srrd, effect_tick, State.reply_rdata,
    State.accept_srIn, State.reply_srIn]

theorem runState_srwr_fields (s : State) (w : Word) (d : Draws) :
    (runState s [⟨.command 0x8000 w, some d⟩]).srOut = w &&& mask s.build.srOutW.val ∧
      (runState s [⟨.command 0x8000 w, some d⟩]).build = s.build := by
  simp only [runState, eventEffect, decode_srwr, effect_srwr]
  exact ⟨rfl, rfl⟩

/-- Settles O25: after SRWR the bits of SR_OUT above its width are 0, so the tick brings the word back. -/
theorem writtenWordComesBackAfterTick : Obligations.WrittenWordComesBackAfterTick := by
  intro s u w d₁ d₂ d₃ hsame hin hu hloop
  rw [runAll_eq] at hu
  obtain rfl : runState s [⟨.command 0x8000 w, some d₁⟩] = u := by injection hu
  obtain ⟨husrOut, hubuild⟩ := runState_srwr_fields s w d₁
  obtain ⟨v, hvsrOut, hvbuild, hvenv, hrdata⟩ := runState_srwr_tick_srrd_rdata s w d₁ d₂ d₃
  rw [hubuild, husrOut] at hloop
  have hbit := getLsbD_and_mask w (w := s.build.srOutW.val) (by omega)
  refine ⟨_, runAll_eq _ _, fun k => ?_⟩
  rw [hrdata, tick_srIn_of_loopback, hvsrOut, hbit]
  · rw [hvbuild, hsame]
  · rwa [hvbuild]
  · intro j hj
    rw [hvbuild] at hj
    rw [hvsrOut, hbit, decide_eq_false hj.not_gt, Bool.false_and]
  · rwa [hvbuild, hvsrOut, hvenv]

end Sys2Proof.Machine
end

section
/-! The display over several steps: at most one digit is lit (43_display.md R163), and a refresh cycle counts down
(R151, R156, R158). -/

namespace Sys2Proof.Machine

/-- Of the inputs only a tick writes SLOT, ANODE and SCNT (10_state.md R41). -/
theorem eventEffect_of_not_isTick {i : Input} (hi : isTick i = false) (s : State) :
    (eventEffect i.event s).slot = s.slot ∧ (eventEffect i.event s).anode = s.anode ∧
      (eventEffect i.event s).scnt = s.scnt := by
  obtain ⟨htick, -⟩ | ⟨-, j, hj, heq⟩ | ⟨-, heq⟩ := eventEffect_cases i s
  · simp [hi] at htick
  · obtain ⟨hslot, -, hanode, hscnt, -⟩ := effect_of_ne_tick hj s
    rw [heq]
    exact ⟨hslot, hanode, hscnt⟩
  · obtain ⟨hslot, hanode, hscnt, -⟩ := comparatorTrip_fields s
    rw [heq]
    exact ⟨hslot, hanode, hscnt⟩

theorem eventEffect_of_isTick {i : Input} (hi : isTick i = true) (s : State) :
    eventEffect i.event s = effect .tick s := by
  obtain ⟨-, heq⟩ | ⟨hno, -⟩ | ⟨hno, -⟩ := eventEffect_cases i s
  · exact heq
  all_goals simp [hi] at hno

/-! ### At most one digit -/

theorem atMostOneLit_zero : AtMostOneLit 0 := fun _ _ h => by simp at h

/-- The pattern that lights digit `n` has no other bit than `n`. -/
theorem atMostOneLit_shiftLeft (n : Nat) : AtMostOneLit (1#3 <<< n) := by
  have hbit {j : Nat} (h : (1#3 <<< n).getLsbD j = true) : j = n := by
    simp only [BitVec.getLsbD_shiftLeft, BitVec.getLsbD_one, Bool.and_eq_true, decide_eq_true_eq,
      Bool.not_eq_true', decide_eq_false_iff_not] at h
    omega
  exact fun j k hj hk => (hbit hj).trans (hbit hk).symm

theorem atMostOneLit_effect_tick (s : State) : AtMostOneLit (effect .tick s).anode := by
  rw [effect_tick, State.reply_anode]
  obtain hdark | ⟨-, hlit⟩ := tick_lit s
  · rw [hdark]
    exact atMostOneLit_zero
  · rw [hlit]
    exact atMostOneLit_shiftLeft _

/-- Settles O29: a tick leaves at most one digit lit, and every other input leaves ANODE as it was. -/
theorem atMostOneDigitLit : Obligations.AtMostOneDigitLit := by
  refine ⟨fun s t h hstep => ?_, fun s => ⟨effect .tick s, exec_eq_effect .tick s, atMostOneLit_effect_tick s⟩⟩
  obtain ⟨-, hwait⟩ | ⟨i, rest, -, hrun⟩ := step_cases s
  · obtain rfl : s = t := by injection hwait.symm.trans hstep
    exact h
  · obtain rfl : eventEffect i.event (s.accept i.draws rest) = t := by injection hrun.symm.trans hstep
    cases hi : isTick i
    · obtain ⟨-, hanode, -⟩ := eventEffect_of_not_isTick hi (s.accept i.draws rest)
      rwa [hanode, State.accept_anode]
    · rw [eventEffect_of_isTick hi]
      exact atMostOneLit_effect_tick _

/-! ### A refresh cycle -/

/-- Exactly digit SLOT is lit, and none where SLOT is no digit (R155). -/
def LitAtSlot (s : State) : Prop := s.anode = if s.slot.toNat < 3 then 1#3 <<< s.slot.toNat else 0

theorem litAtSlot_effect_tick (s : State) : LitAtSlot (effect .tick s) := by
  rw [LitAtSlot, effect_tick, State.reply_anode, State.reply_slot, tick_anode, tick_slot]

/-- As many ticks as SLOT allows count it down one by one, whatever falls between them (R158). -/
theorem runState_counts_down (ins : List Input) {s : State} (hlit : LitAtSlot s)
    (hins : tickCount ins ≤ s.slot.toNat) :
    (runState s ins).slot.toNat = s.slot.toNat - tickCount ins ∧ LitAtSlot (runState s ins) := by
  induction ins generalizing s with
  | nil => exact ⟨rfl, hlit⟩
  | cons i rest ih =>
    rw [tickCount_cons] at hins ⊢
    rw [runState_cons]
    cases hi : isTick i
    · obtain ⟨hslot, hanode, -⟩ := eventEffect_of_not_isTick hi (s.accept i.draws rest)
      rw [State.accept_slot] at hslot
      rw [State.accept_anode] at hanode
      simp only [hi, Bool.false_eq_true, if_false, Nat.zero_add] at hins ⊢
      rw [← hslot]
      exact ih (by rwa [LitAtSlot, hslot, hanode]) (by rwa [hslot])
    · rw [eventEffect_of_isTick hi]
      simp only [hi, if_true] at hins ⊢
      have hne : (s.accept i.draws rest).slot ≠ 0 := by
        rw [State.accept_slot]
        rintro h0
        rw [h0] at hins
        simp at hins
      have hslot : (effect .tick (s.accept i.draws rest)).slot.toNat = s.slot.toNat - 1 := by
        rw [effect_tick_slot, nextSlot_of_ne_zero hne, State.accept_slot]
      obtain ⟨hrun, hlit'⟩ := ih (litAtSlot_effect_tick (s.accept i.draws rest)) (by omega)
      exact ⟨by omega, hlit'⟩

/-- Settles O28: the first tick re-seeds SLOT to `N + DIM`, and the others count it down. -/
theorem refreshCycleCountsDown : Obligations.RefreshCycleCountsDown := by
  intro s first rest h hslot hfirst hticks
  have hseed : (effect .tick (s.accept first.draws rest)).slot.toNat = 3 + s.dim.toNat := by
    have hslot' : (s.accept first.draws rest).slot = 0 := by rwa [State.accept_slot]
    rw [effect_tick_slot, (h.after_accept first.draws rest).nextSlot_toNat, if_pos hslot', State.accept_dim]
  obtain ⟨hrun, hlit⟩ := runState_counts_down rest (litAtSlot_effect_tick (s.accept first.draws rest)) (by omega)
  refine ⟨runState s (first :: rest), runAll_eq s _, ?_⟩
  rw [runState_cons, eventEffect_of_isTick hfirst]
  exact ⟨by omega, hlit⟩

end Sys2Proof.Machine
end

section
/-! The button debouncer over several steps: the long press (40_buttons.md R96), the sample interval (R90), and what the
debouncer acknowledges and depends on (R100, R102). -/

namespace Sys2Proof.Machine

/-! ### The long press -/

/-- The buttons `r` have been held for `n` samples after the one that began the press (R94, R96). -/
structure HeldFor (r : BitVec 2) (n : Nat) (s : State) : Prop where
  btn : btnOf s.bs = r
  press : pressOf s.bs = true
  ack : ackOf s.bs = false
  long : longOf s.bs = decide (s.build.longSamples.toNat ≤ n)
  lcnt : s.lcnt.toNat = s.build.longSamples.toNat - n

/-- The sample that begins a press (R94). -/
theorem heldFor_pressStart (r : BitVec 2) {s : State} (hdelay : s.build.longSamples.toNat ≠ 0) :
    HeldFor r 0 (pressStart r s) where
  btn := by simp [pressStart]
  press := by simp [pressStart]
  ack := by simp [pressStart]
  long := by simpa [pressStart] using hdelay
  lcnt := rfl

/-- One more sample of the same buttons: the long press comes when the delay is counted down, and no second one. -/
theorem HeldFor.after_held {r : BitVec 2} {n : Nat} {s : State} (h : HeldFor r n s) : HeldFor r (n + 1) (held s) := by
  obtain ⟨hbtn, hpress, hack, hlong, hlcnt⟩ := h
  by_cases hn : s.build.longSamples.toNat ≤ n
  · rw [held_long (by simp [hlong, hn])]
    exact ⟨hbtn, hpress, hack, by simp [hlong, hn, Nat.le_succ_of_le], by omega⟩
  · have hshort : longOf s.bs = false := by simp [hlong, hn]
    by_cases hlast : s.lcnt - 1 = 0
    · have hone : s.lcnt.toNat = 1 := by bv_omega
      rw [held_last hshort hlast]
      refine ⟨by simpa using hbtn, by simpa using hpress, by simp, ?_, ?_⟩
      · have hle : s.build.longSamples.toNat ≤ n + 1 := by omega
        simp [hle]
      · simp only [State.setBs_lcnt, State.setLcnt_lcnt, State.setBs_build, State.setLcnt_build]
        bv_omega
    · have hcount : (s.lcnt - 1).toNat = s.lcnt.toNat - 1 := by bv_omega
      have hmore : s.lcnt.toNat - 1 ≠ 0 := fun h0 => hlast (BitVec.eq_of_toNat_eq (hcount.trans h0))
      rw [held_counts hshort hlast]
      refine ⟨hbtn, hpress, hack, ?_, ?_⟩
      · have hlt : ¬s.build.longSamples.toNat ≤ n + 1 := by omega
        simp [hshort, hlt]
      · simp only [State.setLcnt_lcnt, State.setLcnt_build]
        omega

theorem HeldFor.after_samples {r : BitVec 2} (hr : r ≠ 0) (n : Nat) {m : Nat} {s : State} (h : HeldFor r m s) :
    HeldFor r (m + n) (samples (List.replicate n r) s) := by
  induction n generalizing m s with
  | zero => exact h
  | succ n ih =>
    rw [List.replicate_succ, samples, debounce_held hr h.press h.btn.symm, Nat.add_comm n 1, ← Nat.add_assoc]
    exact ih h.after_held

/-- No sample touches the build. -/
theorem samples_build (rs : List (BitVec 2)) (s : State) : (samples rs s).build = s.build := by
  induction rs generalizing s with
  | nil => rfl
  | cons r rs ih => rw [samples, ih, debounce_build]

/-- Settles O33: the first sample begins the press, and the others hold it. -/
theorem longPressComesOnceAndNotBefore : Obligations.LongPressComesOnceAndNotBefore := by
  intro s r n hlegal hidle hr t
  obtain ⟨-, hdelay, -⟩ := (buildLegal_iff _).mp hlegal
  have hbuild : t.build = s.build := samples_build _ s
  have hheld : HeldFor r (0 + n) t := by
    have hstart := (heldFor_pressStart r hdelay).after_samples hr n
    rwa [← debounce_start hr hidle] at hstart
  obtain ⟨hbtn, hpress, hack, hlong, hlcnt⟩ := hheld
  rw [hbuild, Nat.zero_add] at hlong hlcnt
  exact ⟨hbtn, hpress, hack, hlong, hlcnt⟩

/-! ### The sample interval -/

/-- The place of the countdown after `n` more ticks around an interval of `p` (R90). -/
def countdownAfter (p c n : Nat) : Nat := p - (p - c + n) % p

theorem countdownAfter_zero {p c : Nat} (hmin : 1 ≤ c) (hmax : c ≤ p) : countdownAfter p c 0 = c := by
  rw [countdownAfter, Nat.add_zero, Nat.mod_eq_of_lt (by omega)]
  omega

/-- A tick that reloads the countdown begins the next round. -/
theorem countdownAfter_reload {p : Nat} (hp : 1 ≤ p) (n : Nat) : countdownAfter p 1 (1 + n) = countdownAfter p p n := by
  have hround : p - 1 + (1 + n) = p + n := by omega
  rw [countdownAfter, countdownAfter, hround, Nat.sub_self, Nat.zero_add, Nat.add_mod_left]

theorem countdownAfter_count {p c : Nat} (hmin : 1 ≤ c) (hmax : c ≤ p) (n : Nat) :
    countdownAfter p c (1 + n) = countdownAfter p (c - 1) n := by
  have hplace : p - c + (1 + n) = p - (c - 1) + n := by omega
  rw [countdownAfter, countdownAfter, hplace]

/-- A tick moves the countdown one place. -/
theorem Inv.countdownAfter_tick {s : State} (h : Inv s) (n : Nat) :
    countdownAfter s.build.sampleTicks.toNat s.scnt.toNat (1 + n) =
      countdownAfter s.build.sampleTicks.toNat (tick s).scnt.toNat n := by
  have hmin := h.scntMin
  have hmax := h.scntMax
  rw [tick_scnt]
  split
  · next hone =>
    rw [hone] at hmax ⊢
    exact countdownAfter_reload hmax n
  · have hcount : (s.scnt - 1).toNat = s.scnt.toNat - 1 := by bv_omega
    rw [hcount]
    exact countdownAfter_count hmin hmax n

/-- A run moves the countdown one place per tick, whatever falls between the ticks. -/
theorem Inv.runState_scnt {s : State} (h : Inv s) (ins : List Input) :
    (runState s ins).scnt.toNat = countdownAfter s.build.sampleTicks.toNat s.scnt.toNat (tickCount ins) := by
  induction ins generalizing s with
  | nil => exact (countdownAfter_zero h.scntMin h.scntMax).symm
  | cons i rest ih =>
    have hnext := (h.after_accept i.draws rest).after_event i.event
    have hbuild := (eventEffect_inputs i.event (s.accept i.draws rest)).2.1
    rw [runState_cons, ih hnext, hbuild, State.accept_build, tickCount_cons]
    cases hi : isTick i
    · obtain ⟨-, -, hscnt⟩ := eventEffect_of_not_isTick hi (s.accept i.draws rest)
      rw [hscnt, State.accept_scnt]
      simp
    · have htick := (h.after_accept i.draws rest).countdownAfter_tick (tickCount rest)
      rw [State.accept_build, State.accept_scnt] at htick
      rw [eventEffect_of_isTick hi, effect_tick, State.reply_scnt, if_pos rfl, htick]

/-- Settles O34: `runState_scnt`, in the statement's words. -/
theorem sampleIntervalIsExact : Obligations.SampleIntervalIsExact :=
  fun s ins h => ⟨runState s ins, runAll_eq s ins, h.runState_scnt ins⟩

/-! ### ACK -/

/-- A debouncer run that writes BS clears ACK (R93 to R96, R100). -/
theorem debounce_clears_ack_or_keeps_bs (r : BitVec 2) (s : State) :
    ackOf (debounce r s).bs = false ∨ (debounce r s).bs = s.bs := by
  unfold debounce release pressStart bothEvent held
  dsimp only
  split_ifs <;> simp

/-- A command other than TICK and ACKBTN keeps BS (10_state.md R41). -/
theorem effect_bs {i : Instr} (ht : i ≠ .tick) (ha : i ≠ .ackbtn) (s : State) : (effect i s).bs = s.bs := by
  refine BitVec.eq_of_toNat_eq ((keeps_effect i s).1 .bs ?_)
  cases i
  case setdig a b =>
    rw [mayWrite]
    split <;> simp
  all_goals simp_all [mayWrite]

/-- Settles O35: a debouncer run clears ACK or keeps BS, so a tick does not set ACK; no other command but ACKBTN writes
BS. -/
theorem stateChangeIsUnacknowledged : Obligations.StateChangeIsUnacknowledged := by
  refine ⟨fun r s hchange => ?_, fun i s t h h0 h1 => ?_, fun s => ?_⟩
  · obtain hack | hbs := debounce_clears_ack_or_keeps_bs r s
    · exact hack
    · exact absurd (by rw [hbs]) hchange
  · obtain rfl := exec_next_iff.mp h
    by_contra ha
    have hclear : ackOf (effect i s).bs = false := by
      by_cases ht : i = .tick
      · rw [ht, effect_tick, State.reply_bs, tick_bs]
        split
        · obtain hack | hbs := debounce_clears_ack_or_keeps_bs s.env.btn s
          · exact hack
          · rwa [hbs]
        · exact h0
      · rwa [effect_bs ht ha]
    simp [hclear] at h1
  · obtain ⟨-, -, -, hbs, -⟩ := comparatorTrip_fields s
    exact hbs

/-! ### What the debouncer depends on -/

/-- Settles O36: the tick's laws for BS, LCNT and SCNT name no other register, and neither does a debouncer run. -/
theorem debouncerIgnoresDisplay : Obligations.DebouncerIgnoresDisplay := by
  intro s u t v hbs hlcnt hscnt hbtn hlong hticks hs hu
  obtain rfl := exec_next_iff.mp hs
  obtain rfl := exec_next_iff.mp hu
  obtain ⟨hdebBs, hdebLcnt⟩ := debounce_congr u.env.btn hbs hlcnt hlong
  simp only [effect_tick, State.reply_bs, State.reply_lcnt, State.reply_scnt, tick_bs, tick_lcnt, tick_scnt, hbs, hlcnt,
    hscnt, hbtn, hticks, hdebBs, hdebLcnt, and_self]

end Sys2Proof.Machine
end

section
/-! The sampler over several steps: one capture per arming (42_analog.md R142). -/

namespace Sys2Proof.Machine

/-- While the capture is disabled, an input that does not arm changes neither SAMPLE nor CMP_IE (R131, R141). -/
theorem eventEffect_quiet {i : Input} {s : State} (hie : s.cmpIe = false) (harm : isTick i = true → s.slot ≠ 0) :
    (eventEffect i.event s).cmpIe = false ∧ (eventEffect i.event s).sample = s.sample := by
  obtain ⟨htick, heq⟩ | ⟨-, j, hj, heq⟩ | ⟨-, heq⟩ := eventEffect_cases i s
  · rw [heq, effect_tick, State.reply_cmpIe, State.reply_sample, tick_cmpIe, tick_sample,
      if_neg fun h => harm htick h.2]
    exact ⟨hie, rfl⟩
  · obtain ⟨-, -, -, -, -, -, -, hie', hsample, -⟩ := effect_of_ne_tick hj s
    rw [heq, hie', hsample]
    exact ⟨hie, rfl⟩
  · rw [heq, comparatorTrip_of_disabled hie]
    exact ⟨hie, rfl⟩

/-- A run with at most SLOT ticks has no arming tick, since SLOT is 0 after that many ticks at the earliest (R142). -/
theorem runState_quiet (ins : List Input) {s : State} (hie : s.cmpIe = false) (hins : tickCount ins ≤ s.slot.toNat) :
    (runState s ins).cmpIe = false ∧ (runState s ins).sample = s.sample := by
  induction ins generalizing s with
  | nil => exact ⟨hie, rfl⟩
  | cons i rest ih =>
    rw [tickCount_cons] at hins
    have harm (hi : isTick i = true) : (s.accept i.draws rest).slot ≠ 0 := by
      rw [State.accept_slot]
      rintro h0
      simp [hi, h0] at hins
    have hslot : tickCount rest ≤ (eventEffect i.event (s.accept i.draws rest)).slot.toNat := by
      cases hi : isTick i
      · obtain ⟨hkept, -⟩ := eventEffect_of_not_isTick hi (s.accept i.draws rest)
        simpa [hi, hkept] using hins
      · rw [eventEffect_of_isTick hi, effect_tick_slot, nextSlot_of_ne_zero (harm hi), State.accept_slot]
        simp only [hi, if_true] at hins
        omega
    obtain ⟨hie', hsample⟩ := eventEffect_quiet (i := i) (s := s.accept i.draws rest) (by simpa using hie) harm
    obtain ⟨hieRun, hsampleRun⟩ := ih hie' hslot
    rw [State.accept_sample] at hsample
    exact ⟨hieRun, hsampleRun.trans hsample⟩

/-- Settles O47: a trip clears CMP_IE, and what follows is quiet. -/
theorem oneCapturePerArming : Obligations.OneCapturePerArming := by
  refine ⟨fun s => ?_, fun s ins hie hins => ⟨runState s ins, runAll_eq s ins, runState_quiet ins hie hins⟩⟩
  obtain ⟨-, -, -, -, -, -, -, hie⟩ := comparatorTrip_fields s
  exact hie

end Sys2Proof.Machine
end

section
/-! A capture in the middle of a tick (20_memory.md R58): a tick is its actions, and a capture commutes with every
action but the arming. -/

namespace Sys2Proof.Machine

/-! ### A capture and the actions of a tick -/

/-- No action but the arming touches a register that the capture reads or writes. -/
theorem run_preempt (d : Draws) (s : State) {p : Piece} (hp : p ≠ .arm) :
    Piece.run (preempt d s) p = preempt d (Piece.run s p) := by
  cases p
  case arm => exact absurd rfl hp
  case event e =>
    cases e
    case out l v => cases l <;> simp [Piece.run, preempt_eq, State.out]
    all_goals simp [Piece.run, preempt_eq, State.setSeg, State.setAnode, State.wait, State.emit]
  all_goals
    simp [Piece.run, preempt_eq, State.setSlot, State.setBs, State.setLcnt, State.setScnt, State.setSrIn]

theorem runPieces_preempt (d : Draws) {ps : List Piece} (h : .arm ∉ ps) (s : State) :
    runPieces ps (preempt d s) = preempt d (runPieces ps s) := by
  induction ps generalizing s with
  | nil => rfl
  | cons p ps ih =>
    obtain ⟨hp, hps⟩ := not_or.mp (mt List.mem_cons.mpr h)
    rw [runPieces_cons, runPieces_cons, run_preempt d s (Ne.symm hp), ih hps]

theorem noArm_exchangePieces (s : State) : .arm ∉ exchangePieces s := by
  unfold exchangePieces
  split_ifs <;> simp

theorem noArm_countdownPieces (s : State) : .arm ∉ countdownPieces s := by
  unfold countdownPieces
  split_ifs <;> simp

theorem noArm_piecesBefore (s : State) : .arm ∉ piecesBefore s := by
  have hexchange := noArm_exchangePieces s
  have hcountdown := noArm_countdownPieces s
  unfold piecesBefore
  split_ifs <;> simp [hexchange, hcountdown]

theorem noArm_piecesAfter (s : State) : .arm ∉ piecesAfter s := by
  unfold piecesAfter
  dsimp only
  split_ifs <;> simp

/-! ### The actions depend on no register of the capture -/

theorem exchangePieces_congr {s u : State} (hout : s.srOut = u.srOut) (hin : s.srIn = u.srIn)
    (hbuild : s.build = u.build) (henv : s.env = u.env) : exchangePieces s = exchangePieces u := by
  simp only [exchangePieces, exchange_srIn, hout, hin, hbuild, henv]

theorem countdownPieces_congr {s u : State} (hscnt : s.scnt = u.scnt) (hbs : s.bs = u.bs) (hlcnt : s.lcnt = u.lcnt)
    (hbuild : s.build = u.build) (henv : s.env = u.env) : countdownPieces s = countdownPieces u := by
  obtain ⟨hdebBs, hdebLcnt⟩ := debounce_congr u.env.btn hbs hlcnt (congrArg Build.longSamples hbuild)
  simp only [countdownPieces, hscnt, hbuild, henv, hdebBs, hdebLcnt]

theorem exchangePieces_preempt (d : Draws) (s : State) : exchangePieces (preempt d s) = exchangePieces s :=
  exchangePieces_congr (by simp) (by simp) (by simp) (by simp)

theorem countdownPieces_preempt (d : Draws) (s : State) : countdownPieces (preempt d s) = countdownPieces s :=
  countdownPieces_congr (by simp) (by simp) (by simp) (by simp) (by simp)

theorem piecesBefore_preempt (d : Draws) (s : State) : piecesBefore (preempt d s) = piecesBefore s := by
  rw [piecesBefore, piecesBefore, exchangePieces_preempt, countdownPieces_preempt, preempt_slot, preempt_dim]

theorem armPieces_preempt (d : Draws) (s : State) : armPieces (preempt d s) = armPieces s := by
  rw [armPieces, armPieces, preempt_build, preempt_slot]

theorem piecesAfter_preempt (d : Draws) (s : State) : piecesAfter (preempt d s) = piecesAfter s := by
  simp only [piecesAfter, advanceSlot_slot, reseed_slot, preempt_slot, preempt_dim, preempt_digit]

/-! ### A tick is its actions -/

/-- The re-seed and the arming, or the discharge (43_display.md R153, 42_analog.md R130). -/
theorem runPieces_reseed {s t : State} (hslot : t.slot = s.slot) (hdim : t.dim = s.dim) (hbuild : t.build = s.build) :
    runPieces ((if s.slot = 0 then [.slot (cycleSeed s.dim)] else []) ++ armPieces s) t = reseed t := by
  rw [armPieces, reseed, hslot, hdim, hbuild]
  by_cases h0 : s.slot = 0#8 <;> by_cases ha : s.build.analogEn = true
  all_goals simp [h0, ha, runPieces, Piece.run, hbuild, discharge]

/-- The count down of SLOT and the digit (R154, R155). -/
theorem runPieces_piecesAfter {s t : State} (hslot : t.slot = (reseed s).slot) (hdigit : t.digit = s.digit) :
    runPieces (piecesAfter s) t = lightDigit (advanceSlot t) := by
  have hnext : (advanceSlot t).slot = (advanceSlot (reseed s)).slot := by
    rw [advanceSlot_slot, advanceSlot_slot, hslot]
  simp only [piecesAfter, ← hnext, ← hdigit, lightDigit]
  split
  · rfl
  · rfl

/-- Steps 1 to 3 of a tick are their actions: each step's own actions are those that `piecesBefore` reads off the state
before the tick, since no earlier step of the tick writes what they depend on. -/
theorem runPieces_countdown (s : State) :
    runPieces (.event (.outAnode 0) :: exchangePieces s ++ countdownPieces s) s.begin =
      sampleCountdown (exchange (blankDigits s.begin)) := by
  have hexchange : exchangePieces s = exchangePieces (blankDigits s.begin) :=
    exchangePieces_congr rfl rfl rfl rfl
  have hcountdown : countdownPieces s = countdownPieces (exchange (blankDigits s.begin)) :=
    countdownPieces_congr (by simp) (by simp) (by simp) (by simp) (by simp)
  have hblank : Piece.run s.begin (.event (.outAnode 0)) = blankDigits s.begin := rfl
  rw [runPieces_append, runPieces_cons, hblank, hexchange, runPieces_exchangePieces, hcountdown,
    runPieces_countdownPieces]

/-- The actions of a tick, one after the other, are the tick (R150). -/
theorem runPieces_tick (s : State) :
    runPieces (piecesBefore s ++ armPieces s ++ piecesAfter s) s.begin = tick s := by
  rw [runPieces_append, piecesBefore, List.append_assoc, runPieces_append, runPieces_countdown,
    runPieces_reseed (by simp) (by simp) (by simp), runPieces_piecesAfter (by simp) (by simp)]
  rfl

/-! ### A capture and the steps of a tick -/

theorem begin_preempt (d : Draws) (s : State) : (preempt d s).begin = preempt d s.begin := by
  simp [preempt_eq, State.begin]

theorem blankDigits_preempt (d : Draws) (s : State) : blankDigits (preempt d s) = preempt d (blankDigits s) :=
  run_preempt d s (p := .event (.outAnode 0)) (by simp)

theorem exchange_preempt (d : Draws) (s : State) : exchange (preempt d s) = preempt d (exchange s) := by
  rw [← runPieces_exchangePieces, exchangePieces_preempt, runPieces_preempt d (noArm_exchangePieces s),
    runPieces_exchangePieces]

theorem sampleCountdown_preempt (d : Draws) (s : State) :
    sampleCountdown (preempt d s) = preempt d (sampleCountdown s) := by
  rw [← runPieces_countdownPieces, countdownPieces_preempt, runPieces_preempt d (noArm_countdownPieces s),
    runPieces_countdownPieces]

theorem advanceSlot_preempt (d : Draws) (s : State) : advanceSlot (preempt d s) = preempt d (advanceSlot s) := by
  rw [advanceSlot, preempt_slot]
  exact run_preempt d s (p := .slot (s.slot - 1)) (by simp)

theorem lightDigit_preempt (d : Draws) (s : State) : lightDigit (preempt d s) = preempt d (lightDigit s) := by
  simp only [lightDigit_eq, preempt_slot, preempt_digit]
  split <;> simp [preempt_eq]

/-- A capture before step 4 of a tick is one before the tick. -/
theorem tick_preempt (d : Draws) (s : State) :
    tick (preempt d s) =
      lightDigit (advanceSlot (reseed (preempt d (sampleCountdown (exchange (blankDigits s.begin)))))) := by
  rw [tick, begin_preempt, blankDigits_preempt, exchange_preempt, sampleCountdown_preempt]

/-- Settles O48: before the arming or discharge a capture moves to the front of the actions, which are then those of the
tick after it; from there on it moves to their end. -/
theorem preemptionGivesNoNewState : Obligations.PreemptionGivesNoNewState := by
  intro d s
  refine ⟨runPieces_tick s, fun l₁ l₂ hsplit => ?_, fun l₁ l₂ hsplit => ?_, fun p => run_preempt d s,
    ⟨piecesBefore_preempt d s, armPieces_preempt d s, piecesAfter_preempt d s⟩, ?_, ?_, ?_, ?_, ?_⟩
  · have harm : .arm ∉ l₁ := fun h => noArm_piecesBefore s (hsplit ▸ List.mem_append_left l₂ h)
    rw [← runPieces_preempt d harm, ← runPieces_append, ← begin_preempt, ← List.append_assoc, ← List.append_assoc,
      ← hsplit, ← runPieces_tick, piecesBefore_preempt, armPieces_preempt, piecesAfter_preempt]
  · have harm : .arm ∉ l₂ := fun h => noArm_piecesAfter s (hsplit ▸ List.mem_append_right l₁ h)
    rw [runPieces_preempt d harm, ← runPieces_append, List.append_assoc, ← hsplit, runPieces_tick]
  · rw [exchange_preempt, sampleCountdown_preempt, tick_preempt]
  · rw [sampleCountdown_preempt, tick_preempt]
  · rw [tick_preempt]
  · rw [advanceSlot_preempt, lightDigit_preempt, tick]
  · rw [lightDigit_preempt, tick]

end Sys2Proof.Machine
end
